-- ==== Sys2Proof/Word.lean ====
section
/-! DEFINITION. The words of KCPSM6 (00_scope.md R8, R9): the widths the architecture fixes, and the name of a register bank.
Every value the spec calls bits is a bit vector of exactly the width it gives. -/

namespace Sys2Proof

/-- Data, an 8-bit constant `kk`, a port address `pp`, a scratch pad location `ss` (R8, R9). -/
abbrev Byte := BitVec 8

/-- The number of a register in its bank, s0 to sF (10_state.md R20). -/
abbrev RegNum := BitVec 4

/-- A program address: it counts instructions (10_state.md R24). -/
abbrev ProgAddr := BitVec 12

/-- An instruction word `iw[17:0]` (30_encoding.md R70). -/
abbrev IWord := BitVec 18

/-- The address of a constant-optimised output port (20_memory.md R57). -/
abbrev PortK := BitVec 4

/-- A register bank (10_state.md R20, R22): `A` is the spec's `bank = 0`, `B` its `bank = 1`. -/
inductive Bank where
  | A
  | B
deriving DecidableEq, Repr, Inhabited

/-- The spec's `1 - bank`: the bank STAR writes (10_state.md R23). -/
def Bank.other : Bank → Bank
  | .A => .B
  | .B => .A

end Sys2Proof
end

