-- ==== Sys2Proof/Config.lean ====
section
/-! DEFINITION. What a design fixes (00_scope.md R6, R7), what the environment shows and is shown (00_scope.md R15), and the
free values: opaque constants, so that nothing can be proved of a value the spec leaves open. -/

namespace Sys2Proof

/-- The three legal values of the generic `scratch_pad_memory_size` (00_scope.md R6); no other value can be written down,
which is how the model refuses it (93_implementation_defined.md M3). -/
inductive ScratchPadSize where
  | bytes64
  | bytes128
  | bytes256
deriving DecidableEq, Repr

/-- How many bytes of scratch pad there are (10_state.md R34). -/
def ScratchPadSize.bytes : ScratchPadSize → Nat
  | .bytes64 => 64
  | .bytes128 => 128
  | .bytes256 => 256

/-- The parameters of one KCPSM6 but for its program (00_scope.md R6, R7; 92_eei_decisions.md D24), constant while it runs. -/
structure Generics where
  /-- The generic `hwbuild`, read by HWBUILD (R6). -/
  hwbuild : Byte
  /-- The generic `interrupt_vector` (R6). -/
  interruptVector : ProgAddr
  /-- The generic `scratch_pad_memory_size` (R6). -/
  scratchPadSize : ScratchPadSize
  /-- `program_memory_size`: how many program addresses physically exist (R7). -/
  programMemorySize : Nat
  /-- `interrupt_entry_cycles`: used only to count clock cycles (D24). -/
  interruptEntryCycles : Nat
deriving DecidableEq, Repr

/-- The events the environment observes (20_memory.md R55 to R57, 60_exceptions.md R260). -/
inductive Event where
  /-- `Read(p)`: an INPUT, qualified by `read_strobe` (R55). -/
  | read (p : Byte)
  /-- `Write(p, v)`: an OUTPUT, qualified by `write_strobe` (R56). -/
  | write (p v : Byte)
  /-- `WriteK(p, v)`: an OUTPUTK, qualified by `k_write_strobe`; `port_id[7:4]` is no part of it (R57, D17). -/
  | writeK (p : PortK) (v : Byte)
  /-- `IntAck`: an interrupt was entered (R260, D29). -/
  | intAck
deriving DecidableEq, Repr

/-- The levels of the three input pins the environment presents at one step boundary (60_exceptions.md R259). -/
structure Levels where
  /-- The `reset` input (70_reset_and_hazards.md R291). -/
  reset : Bool
  /-- The `sleep` input (60_exceptions.md R266). -/
  sleep : Bool
  /-- `irq`, the level of `interrupt` as the core samples it (60_exceptions.md R253). -/
  interrupt : Bool
deriving DecidableEq, Repr, Inhabited

/-- All three pins Low. -/
def Levels.quiet : Levels := ⟨false, false, false⟩

/-- Free value (93 V5): the pin levels at a boundary that no list of the state names. The environment may choose them by
time and by what it has observed. -/
opaque Config.pinLevels : (boundary : Nat) → (history : List Event) → Levels

/-- Free value (93 V4, 20_memory.md R58): the byte presented to an INPUT from port `p` that no list of the state names. -/
opaque Config.inPort : (boundary : Nat) → (history : List Event) → (p : Byte) → Byte

/-- Free value (93 V3): `Z` after the reset numbered `n`; the value before is an argument, so that keeping it is one of
the possibilities (92_eei_decisions.md D6, D8). -/
opaque Config.zeroAfterReset : (n : Nat) → (old : Bool) → Bool

/-- Free value (93 V3): `C` after the reset numbered `n` (D6, D8). -/
opaque Config.carryAfterReset : (n : Nat) → (old : Bool) → Bool

/-- Free value (93 V1): register `i` of a bank after the reset numbered `n` (D4, D8). -/
opaque Config.registerAfterReset : (n : Nat) → (b : Bank) → (i : Nat) → (old : Byte) → Byte

/-- Free value (93 V2): scratch pad location `a` after the reset numbered `n` (D5, D8). -/
opaque Config.scratchPadAfterReset : (n : Nat) → (a : Nat) → (old : Byte) → Byte

end Sys2Proof
end

