-- ==== Sys2Proof/Syntax.lean ====
section
/-! DEFINITION. The 69 instructions of 30_encoding.md R78, one constructor per row, in the table's order. A field `X`, `Y` is a
register number, `kk`, `pp`, `ss` an 8-bit constant, port or location, `p` a 4-bit port, `aaa` a 12-bit address (R71, R79). -/

namespace Sys2Proof

/-- One instruction of KCPSM6 (30_encoding.md R78). The suffix `RR` is the form with a register as second operand, `RK` the
form with a constant (R72). -/
inductive Instr where
  /-- LOAD sX, sY (R100; row 1). -/
  | loadRR (x y : RegNum)
  /-- LOAD sX, kk (R101; row 2). -/
  | loadRK (x : RegNum) (kk : Byte)
  /-- STAR sX, sY (R102; row 3). -/
  | star (x y : RegNum)
  /-- DISABLE INTERRUPT (R196; row 4). -/
  | disableInterrupt
  /-- ENABLE INTERRUPT (R197; row 5). -/
  | enableInterrupt
  /-- RETURNI DISABLE (R198; row 6). -/
  | returniDisable
  /-- RETURNI ENABLE (R199; row 7). -/
  | returniEnable
  /-- SL0 sX (R151; row 8). -/
  | sl0 (x : RegNum)
  /-- SL1 sX (R152; row 9). -/
  | sl1 (x : RegNum)
  /-- SLX sX (R153; row 10). -/
  | slx (x : RegNum)
  /-- SLA sX (R154; row 11). -/
  | sla (x : RegNum)
  /-- RL sX (R155; row 12). -/
  | rl (x : RegNum)
  /-- SR0 sX (R156; row 13). -/
  | sr0 (x : RegNum)
  /-- SR1 sX (R157; row 14). -/
  | sr1 (x : RegNum)
  /-- SRX sX (R158; row 15). -/
  | srx (x : RegNum)
  /-- SRA sX (R159; row 16). -/
  | sra (x : RegNum)
  /-- RR sX (R160; row 17). -/
  | rr (x : RegNum)
  /-- AND sX, sY (R111; row 18). -/
  | andRR (x y : RegNum)
  /-- AND sX, kk (R112; row 19). -/
  | andRK (x : RegNum) (kk : Byte)
  /-- OR sX, sY (R113; row 20). -/
  | orRR (x y : RegNum)
  /-- OR sX, kk (R114; row 21). -/
  | orRK (x : RegNum) (kk : Byte)
  /-- XOR sX, sY (R115; row 22). -/
  | xorRR (x y : RegNum)
  /-- XOR sX, kk (R116; row 23). -/
  | xorRK (x : RegNum) (kk : Byte)
  /-- JUMP aaa (R206; row 24). -/
  | jump (aaa : ProgAddr)
  /-- JUMP Z, aaa (R207; row 25). -/
  | jumpZ (aaa : ProgAddr)
  /-- JUMP NZ, aaa (R208; row 26). -/
  | jumpNZ (aaa : ProgAddr)
  /-- JUMP C, aaa (R209; row 27). -/
  | jumpC (aaa : ProgAddr)
  /-- JUMP NC, aaa (R210; row 28). -/
  | jumpNC (aaa : ProgAddr)
  /-- JUMP@ (sX, sY) (R211; row 29). -/
  | jumpAt (x y : RegNum)
  /-- INPUT sX, (sY) (R171; row 30). -/
  | inputRR (x y : RegNum)
  /-- INPUT sX, pp (R172; row 31). -/
  | inputRK (x : RegNum) (pp : Byte)
  /-- OUTPUT sX, (sY) (R173; row 32). -/
  | outputRR (x y : RegNum)
  /-- OUTPUT sX, pp (R174; row 33). -/
  | outputRK (x : RegNum) (pp : Byte)
  /-- OUTPUTK kk, p (R175; row 34). -/
  | outputK (kk : Byte) (p : PortK)
  /-- ADD sX, sY (R121; row 35). -/
  | addRR (x y : RegNum)
  /-- ADD sX, kk (R122; row 36). -/
  | addRK (x : RegNum) (kk : Byte)
  /-- ADDCY sX, sY (R123; row 37). -/
  | addcyRR (x y : RegNum)
  /-- ADDCY sX, kk (R124; row 38). -/
  | addcyRK (x : RegNum) (kk : Byte)
  /-- SUB sX, sY (R125; row 39). -/
  | subRR (x y : RegNum)
  /-- SUB sX, kk (R126; row 40). -/
  | subRK (x : RegNum) (kk : Byte)
  /-- SUBCY sX, sY (R127; row 41). -/
  | subcyRR (x y : RegNum)
  /-- SUBCY sX, kk (R128; row 42). -/
  | subcyRK (x : RegNum) (kk : Byte)
  /-- TEST sX, sY (R136; row 43). -/
  | testRR (x y : RegNum)
  /-- TEST sX, kk (R137; row 44). -/
  | testRK (x : RegNum) (kk : Byte)
  /-- TESTCY sX, sY (R138; row 45). -/
  | testcyRR (x y : RegNum)
  /-- TESTCY sX, kk (R139; row 46). -/
  | testcyRK (x : RegNum) (kk : Byte)
  /-- COMPARE sX, sY (R140; row 47). -/
  | compareRR (x y : RegNum)
  /-- COMPARE sX, kk (R141; row 48). -/
  | compareRK (x : RegNum) (kk : Byte)
  /-- COMPARECY sX, sY (R142; row 49). -/
  | comparecyRR (x y : RegNum)
  /-- COMPARECY sX, kk (R143; row 50). -/
  | comparecyRK (x : RegNum) (kk : Byte)
  /-- REGBANK A (R103; row 51). -/
  | regbankA
  /-- REGBANK B (R104; row 52). -/
  | regbankB
  /-- STORE sX, (sY) (R186; row 53). -/
  | storeRR (x y : RegNum)
  /-- STORE sX, ss (R187; row 54). -/
  | storeRK (x : RegNum) (ss : Byte)
  /-- FETCH sX, (sY) (R188; row 55). -/
  | fetchRR (x y : RegNum)
  /-- FETCH sX, ss (R189; row 56). -/
  | fetchRK (x : RegNum) (ss : Byte)
  /-- CALL aaa (R221; row 57). -/
  | call (aaa : ProgAddr)
  /-- CALL Z, aaa (R222; row 58). -/
  | callZ (aaa : ProgAddr)
  /-- CALL NZ, aaa (R223; row 59). -/
  | callNZ (aaa : ProgAddr)
  /-- CALL C, aaa (R224; row 60). -/
  | callC (aaa : ProgAddr)
  /-- CALL NC, aaa (R225; row 61). -/
  | callNC (aaa : ProgAddr)
  /-- CALL@ (sX, sY) (R226; row 62). -/
  | callAt (x y : RegNum)
  /-- RETURN (R227; row 63). -/
  | ret
  /-- RETURN Z (R228; row 64). -/
  | retZ
  /-- RETURN NZ (R229; row 65). -/
  | retNZ
  /-- RETURN C (R230; row 66). -/
  | retC
  /-- RETURN NC (R231; row 67). -/
  | retNC
  /-- LOAD&RETURN sX, kk (R232; row 68). -/
  | loadReturn (x : RegNum) (kk : Byte)
  /-- HWBUILD sX (R234; row 69). -/
  | hwbuild (x : RegNum)
deriving DecidableEq, Repr

end Sys2Proof
end

