-- ==== Sys2Proof/WellFormed.lean ====
section
/-! DEFINITION. Which configurations the model accepts. An instruction needs no check: every operand of `Instr` is a bit
vector of exactly its field's width, and every value of every field is legal (10_state.md R21, 30_encoding.md R71, R79).
The scratch pad size needs none either (`ScratchPadSize` has the three legal values only). What is left to check is the
program memory's size. -/

namespace Sys2Proof

/-- `program_memory_size` is at most 4096 and not 0 (00_scope.md R7, 93_implementation_defined.md M4). -/
def Generics.legal (g : Generics) : Bool :=
  decide (0 < g.programMemorySize) && decide (g.programMemorySize ≤ 4096)

/-- Every instruction is well-formed: its operands cannot be out of range. -/
def Instr.wellFormed (_ : Instr) : Bool := true

end Sys2Proof
end

