-- ==== Sys2Proof/Decode.lean ====
section
/-! DEFINITION. The opcode table (30_encoding.md R78), the decoder, total on the 18-bit words and rejecting the reserved ones
by the class of R84 they belong to, and the encoder. -/

namespace Sys2Proof

/-- The classes of words R84 leaves without a meaning. -/
inductive Reserved where
  /-- One of the eight unlisted opcodes. -/
  | unlistedOpcode
  /-- A register-register form whose low digit is not 0. -/
  | lowDigit
  /-- Opcode 0x14 with a selector that is none of the eleven listed. -/
  | shiftSelector
  /-- A fixed word with other operand bits. -/
  | fixedOperand
deriving DecidableEq, Repr

/-- What the decoder reads from a word. -/
inductive Decoded where
  | instr (i : Instr)
  | reserved (r : Reserved)
deriving DecidableEq, Repr

/-! ## Fields (R71) -/

/-- `op`, `iw[17:12]`. -/
def fieldOp (w : IWord) : BitVec 6 := w.extractLsb' 12 6

/-- `X`, `iw[11:8]`. -/
def fieldX (w : IWord) : RegNum := w.extractLsb' 8 4

/-- `Y`, `iw[7:4]`. -/
def fieldY (w : IWord) : RegNum := w.extractLsb' 4 4

/-- `kk`, `pp`, `ss` and `sh`, `iw[7:0]`. -/
def fieldKK (w : IWord) : Byte := w.extractLsb' 0 8

/-- `aaa`, `iw[11:0]`. -/
def fieldAAA (w : IWord) : ProgAddr := w.extractLsb' 0 12

/-- `kkK`, `iw[11:4]`: the constant of OUTPUTK. -/
def fieldKKK (w : IWord) : Byte := w.extractLsb' 4 8

/-- `pK`, `iw[3:0]`: the port of OUTPUTK; in format RR the digit that must be 0. -/
def fieldPK (w : IWord) : PortK := w.extractLsb' 0 4

/-! ## The opcode table (R78) -/

/-- One row of R78: its mnemonic as spec/opcode_table.json spells it, its match value and its mask. -/
structure Row where
  mnemonic : String
  value : IWord
  mask : IWord
deriving DecidableEq, Repr

/-- A word matches a row when it has the row's value on the bits of the row's mask (R72). -/
def Row.matches (r : Row) (w : IWord) : Bool := (w &&& r.mask) == r.value

/-- Rows 1 to 23 of R78. -/
def tableRowsA : List Row := [
  ⟨"LOAD_sX__sY", 0x00000#18, 0x3F00F#18⟩,
  ⟨"LOAD_sX__kk", 0x01000#18, 0x3F000#18⟩,
  ⟨"STAR_sX__sY", 0x16000#18, 0x3F00F#18⟩,
  ⟨"DISABLE_INTERRUPT", 0x28000#18, 0x3FFFF#18⟩,
  ⟨"ENABLE_INTERRUPT", 0x28001#18, 0x3FFFF#18⟩,
  ⟨"RETURNI_DISABLE", 0x29000#18, 0x3FFFF#18⟩,
  ⟨"RETURNI_ENABLE", 0x29001#18, 0x3FFFF#18⟩,
  ⟨"SL0_sX", 0x14006#18, 0x3F0FF#18⟩,
  ⟨"SL1_sX", 0x14007#18, 0x3F0FF#18⟩,
  ⟨"SLX_sX", 0x14004#18, 0x3F0FF#18⟩,
  ⟨"SLA_sX", 0x14000#18, 0x3F0FF#18⟩,
  ⟨"RL_sX", 0x14002#18, 0x3F0FF#18⟩,
  ⟨"SR0_sX", 0x1400E#18, 0x3F0FF#18⟩,
  ⟨"SR1_sX", 0x1400F#18, 0x3F0FF#18⟩,
  ⟨"SRX_sX", 0x1400A#18, 0x3F0FF#18⟩,
  ⟨"SRA_sX", 0x14008#18, 0x3F0FF#18⟩,
  ⟨"RR_sX", 0x1400C#18, 0x3F0FF#18⟩,
  ⟨"AND_sX__sY", 0x02000#18, 0x3F00F#18⟩,
  ⟨"AND_sX__kk", 0x03000#18, 0x3F000#18⟩,
  ⟨"OR_sX__sY", 0x04000#18, 0x3F00F#18⟩,
  ⟨"OR_sX__kk", 0x05000#18, 0x3F000#18⟩,
  ⟨"XOR_sX__sY", 0x06000#18, 0x3F00F#18⟩,
  ⟨"XOR_sX__kk", 0x07000#18, 0x3F000#18⟩]

/-- Rows 24 to 50 of R78. -/
def tableRowsB : List Row := [
  ⟨"JUMP_aaa", 0x22000#18, 0x3F000#18⟩,
  ⟨"JUMP_Z__aaa", 0x32000#18, 0x3F000#18⟩,
  ⟨"JUMP_NZ__aaa", 0x36000#18, 0x3F000#18⟩,
  ⟨"JUMP_C__aaa", 0x3A000#18, 0x3F000#18⟩,
  ⟨"JUMP_NC__aaa", 0x3E000#18, 0x3F000#18⟩,
  ⟨"JUMP___sX__sY", 0x26000#18, 0x3F00F#18⟩,
  ⟨"INPUT_sX___sY", 0x08000#18, 0x3F00F#18⟩,
  ⟨"INPUT_sX__pp", 0x09000#18, 0x3F000#18⟩,
  ⟨"OUTPUT_sX___sY", 0x2C000#18, 0x3F00F#18⟩,
  ⟨"OUTPUT_sX__pp", 0x2D000#18, 0x3F000#18⟩,
  ⟨"OUTPUTK_kk__p", 0x2B000#18, 0x3F000#18⟩,
  ⟨"ADD_sX__sY", 0x10000#18, 0x3F00F#18⟩,
  ⟨"ADD_sX__kk", 0x11000#18, 0x3F000#18⟩,
  ⟨"ADDCY_sX__sY", 0x12000#18, 0x3F00F#18⟩,
  ⟨"ADDCY_sX__kk", 0x13000#18, 0x3F000#18⟩,
  ⟨"SUB_sX__sY", 0x18000#18, 0x3F00F#18⟩,
  ⟨"SUB_sX__kk", 0x19000#18, 0x3F000#18⟩,
  ⟨"SUBCY_sX__sY", 0x1A000#18, 0x3F00F#18⟩,
  ⟨"SUBCY_sX__kk", 0x1B000#18, 0x3F000#18⟩,
  ⟨"TEST_sX__sY", 0x0C000#18, 0x3F00F#18⟩,
  ⟨"TEST_sX__kk", 0x0D000#18, 0x3F000#18⟩,
  ⟨"TESTCY_sX__sY", 0x0E000#18, 0x3F00F#18⟩,
  ⟨"TESTCY_sX__kk", 0x0F000#18, 0x3F000#18⟩,
  ⟨"COMPARE_sX__sY", 0x1C000#18, 0x3F00F#18⟩,
  ⟨"COMPARE_sX__kk", 0x1D000#18, 0x3F000#18⟩,
  ⟨"COMPARECY_sX__sY", 0x1E000#18, 0x3F00F#18⟩,
  ⟨"COMPARECY_sX__kk", 0x1F000#18, 0x3F000#18⟩]

/-- Rows 51 to 69 of R78. -/
def tableRowsC : List Row := [
  ⟨"REGBANK_A", 0x37000#18, 0x3FFFF#18⟩,
  ⟨"REGBANK_B", 0x37001#18, 0x3FFFF#18⟩,
  ⟨"STORE_sX___sY", 0x2E000#18, 0x3F00F#18⟩,
  ⟨"STORE_sX__ss", 0x2F000#18, 0x3F000#18⟩,
  ⟨"FETCH_sX___sY", 0x0A000#18, 0x3F00F#18⟩,
  ⟨"FETCH_sX__ss", 0x0B000#18, 0x3F000#18⟩,
  ⟨"CALL_aaa", 0x20000#18, 0x3F000#18⟩,
  ⟨"CALL_Z__aaa", 0x30000#18, 0x3F000#18⟩,
  ⟨"CALL_NZ__aaa", 0x34000#18, 0x3F000#18⟩,
  ⟨"CALL_C__aaa", 0x38000#18, 0x3F000#18⟩,
  ⟨"CALL_NC__aaa", 0x3C000#18, 0x3F000#18⟩,
  ⟨"CALL___sX__sY", 0x24000#18, 0x3F00F#18⟩,
  ⟨"RETURN", 0x25000#18, 0x3FFFF#18⟩,
  ⟨"RETURN_Z", 0x31000#18, 0x3FFFF#18⟩,
  ⟨"RETURN_NZ", 0x35000#18, 0x3FFFF#18⟩,
  ⟨"RETURN_C", 0x39000#18, 0x3FFFF#18⟩,
  ⟨"RETURN_NC", 0x3D000#18, 0x3FFFF#18⟩,
  ⟨"LOAD_RETURN_sX__kk", 0x21000#18, 0x3F000#18⟩,
  ⟨"HWBUILD_sX", 0x14080#18, 0x3F0FF#18⟩]

/-- The 69 rows of R78, in the spec's order. -/
def opcodeTable : List Row := tableRowsA ++ tableRowsB ++ tableRowsC

/-- The number of an instruction's row in R78. -/
def Instr.rowNumber : Instr → Nat
  | .loadRR _ _ => 1
  | .loadRK _ _ => 2
  | .star _ _ => 3
  | .disableInterrupt => 4
  | .enableInterrupt => 5
  | .returniDisable => 6
  | .returniEnable => 7
  | .sl0 _ => 8
  | .sl1 _ => 9
  | .slx _ => 10
  | .sla _ => 11
  | .rl _ => 12
  | .sr0 _ => 13
  | .sr1 _ => 14
  | .srx _ => 15
  | .sra _ => 16
  | .rr _ => 17
  | .andRR _ _ => 18
  | .andRK _ _ => 19
  | .orRR _ _ => 20
  | .orRK _ _ => 21
  | .xorRR _ _ => 22
  | .xorRK _ _ => 23
  | .jump _ => 24
  | .jumpZ _ => 25
  | .jumpNZ _ => 26
  | .jumpC _ => 27
  | .jumpNC _ => 28
  | .jumpAt _ _ => 29
  | .inputRR _ _ => 30
  | .inputRK _ _ => 31
  | .outputRR _ _ => 32
  | .outputRK _ _ => 33
  | .outputK _ _ => 34
  | .addRR _ _ => 35
  | .addRK _ _ => 36
  | .addcyRR _ _ => 37
  | .addcyRK _ _ => 38
  | .subRR _ _ => 39
  | .subRK _ _ => 40
  | .subcyRR _ _ => 41
  | .subcyRK _ _ => 42
  | .testRR _ _ => 43
  | .testRK _ _ => 44
  | .testcyRR _ _ => 45
  | .testcyRK _ _ => 46
  | .compareRR _ _ => 47
  | .compareRK _ _ => 48
  | .comparecyRR _ _ => 49
  | .comparecyRK _ _ => 50
  | .regbankA => 51
  | .regbankB => 52
  | .storeRR _ _ => 53
  | .storeRK _ _ => 54
  | .fetchRR _ _ => 55
  | .fetchRK _ _ => 56
  | .call _ => 57
  | .callZ _ => 58
  | .callNZ _ => 59
  | .callC _ => 60
  | .callNC _ => 61
  | .callAt _ _ => 62
  | .ret => 63
  | .retZ => 64
  | .retNZ => 65
  | .retC => 66
  | .retNC => 67
  | .loadReturn _ _ => 68
  | .hwbuild _ => 69

/-- The row of R78 an instruction belongs to. -/
def Instr.row (i : Instr) : Row := opcodeTable.getD (i.rowNumber - 1) ⟨"", 0#18, 0#18⟩

/-! ## The decoder (R72, R78, R84) -/

/-- Format RR: the low digit must be 0 (R72). -/
def decodeRR (w : IWord) (f : RegNum → RegNum → Instr) : Decoded :=
  if fieldPK w = 0#4 then .instr (f (fieldX w) (fieldY w)) else .reserved .lowDigit

/-- Format RK. -/
def decodeRK (w : IWord) (f : RegNum → Byte → Instr) : Decoded := .instr (f (fieldX w) (fieldKK w))

/-- Format A. -/
def decodeA (w : IWord) (f : ProgAddr → Instr) : Decoded := .instr (f (fieldAAA w))

/-- Format KP. -/
def decodeKP (w : IWord) (f : Byte → PortK → Instr) : Decoded := .instr (f (fieldKKK w) (fieldPK w))

/-- Format F0 alone: the twelve operand bits are 0. -/
def decodeF0 (w : IWord) (i : Instr) : Decoded :=
  if fieldAAA w = 0x000#12 then .instr i else .reserved .fixedOperand

/-- Formats F0 and F1 under one opcode: the twelve operand bits are 0 or 1. -/
def decodeF01 (w : IWord) (i₀ i₁ : Instr) : Decoded :=
  if fieldAAA w = 0x000#12 then .instr i₀
  else if fieldAAA w = 0x001#12 then .instr i₁
  else .reserved .fixedOperand

/-- Format SH, opcode 0x14: the selector `sh` names the operation. -/
def decodeSH (w : IWord) : Decoded :=
  match (fieldKK w).toNat with
  | 0x00 => .instr (.sla (fieldX w))
  | 0x02 => .instr (.rl (fieldX w))
  | 0x04 => .instr (.slx (fieldX w))
  | 0x06 => .instr (.sl0 (fieldX w))
  | 0x07 => .instr (.sl1 (fieldX w))
  | 0x08 => .instr (.sra (fieldX w))
  | 0x0A => .instr (.srx (fieldX w))
  | 0x0C => .instr (.rr (fieldX w))
  | 0x0E => .instr (.sr0 (fieldX w))
  | 0x0F => .instr (.sr1 (fieldX w))
  | 0x80 => .instr (.hwbuild (fieldX w))
  | _ => .reserved .shiftSelector

/-- The decoder: the instruction of the one row of R78 the word matches, or the class of R84 it is reserved by. -/
def decode (w : IWord) : Decoded :=
  match (fieldOp w).toNat with
  | 0x00 => decodeRR w .loadRR
  | 0x01 => decodeRK w .loadRK
  | 0x02 => decodeRR w .andRR
  | 0x03 => decodeRK w .andRK
  | 0x04 => decodeRR w .orRR
  | 0x05 => decodeRK w .orRK
  | 0x06 => decodeRR w .xorRR
  | 0x07 => decodeRK w .xorRK
  | 0x08 => decodeRR w .inputRR
  | 0x09 => decodeRK w .inputRK
  | 0x0A => decodeRR w .fetchRR
  | 0x0B => decodeRK w .fetchRK
  | 0x0C => decodeRR w .testRR
  | 0x0D => decodeRK w .testRK
  | 0x0E => decodeRR w .testcyRR
  | 0x0F => decodeRK w .testcyRK
  | 0x10 => decodeRR w .addRR
  | 0x11 => decodeRK w .addRK
  | 0x12 => decodeRR w .addcyRR
  | 0x13 => decodeRK w .addcyRK
  | 0x14 => decodeSH w
  | 0x16 => decodeRR w .star
  | 0x18 => decodeRR w .subRR
  | 0x19 => decodeRK w .subRK
  | 0x1A => decodeRR w .subcyRR
  | 0x1B => decodeRK w .subcyRK
  | 0x1C => decodeRR w .compareRR
  | 0x1D => decodeRK w .compareRK
  | 0x1E => decodeRR w .comparecyRR
  | 0x1F => decodeRK w .comparecyRK
  | 0x20 => decodeA w .call
  | 0x21 => decodeRK w .loadReturn
  | 0x22 => decodeA w .jump
  | 0x24 => decodeRR w .callAt
  | 0x25 => decodeF0 w .ret
  | 0x26 => decodeRR w .jumpAt
  | 0x28 => decodeF01 w .disableInterrupt .enableInterrupt
  | 0x29 => decodeF01 w .returniDisable .returniEnable
  | 0x2B => decodeKP w .outputK
  | 0x2C => decodeRR w .outputRR
  | 0x2D => decodeRK w .outputRK
  | 0x2E => decodeRR w .storeRR
  | 0x2F => decodeRK w .storeRK
  | 0x30 => decodeA w .callZ
  | 0x31 => decodeF0 w .retZ
  | 0x32 => decodeA w .jumpZ
  | 0x34 => decodeA w .callNZ
  | 0x35 => decodeF0 w .retNZ
  | 0x36 => decodeA w .jumpNZ
  | 0x37 => decodeF01 w .regbankA .regbankB
  | 0x38 => decodeA w .callC
  | 0x39 => decodeF0 w .retC
  | 0x3A => decodeA w .jumpC
  | 0x3C => decodeA w .callNC
  | 0x3D => decodeF0 w .retNC
  | 0x3E => decodeA w .jumpNC
  | _ => .reserved .unlistedOpcode

/-! ## The encoder (R72, R78) -/

/-- `op X Y 0`. -/
def wordRR (op : BitVec 6) (x y : RegNum) : IWord := op ++ x ++ y ++ 0x0#4

/-- `op X kk`. -/
def wordRK (op : BitVec 6) (x : RegNum) (kk : Byte) : IWord := op ++ x ++ kk

/-- `op aaa`. -/
def wordA (op : BitVec 6) (aaa : ProgAddr) : IWord := op ++ aaa

/-- `010100 X sh`. -/
def wordSH (x : RegNum) (sh : Byte) : IWord := 0x14#6 ++ x ++ sh

/-- `101011 kkK pK`. -/
def wordKP (kk : Byte) (p : PortK) : IWord := 0x2B#6 ++ kk ++ p

/-- `op` and twelve fixed bits. -/
def wordF (op : BitVec 6) (low : BitVec 12) : IWord := op ++ low

/-- The word of an instruction. -/
def encode : Instr → IWord
  | .loadRR x y => wordRR 0x00#6 x y
  | .loadRK x kk => wordRK 0x01#6 x kk
  | .star x y => wordRR 0x16#6 x y
  | .disableInterrupt => wordF 0x28#6 0x000#12
  | .enableInterrupt => wordF 0x28#6 0x001#12
  | .returniDisable => wordF 0x29#6 0x000#12
  | .returniEnable => wordF 0x29#6 0x001#12
  | .sl0 x => wordSH x 0x06#8
  | .sl1 x => wordSH x 0x07#8
  | .slx x => wordSH x 0x04#8
  | .sla x => wordSH x 0x00#8
  | .rl x => wordSH x 0x02#8
  | .sr0 x => wordSH x 0x0E#8
  | .sr1 x => wordSH x 0x0F#8
  | .srx x => wordSH x 0x0A#8
  | .sra x => wordSH x 0x08#8
  | .rr x => wordSH x 0x0C#8
  | .andRR x y => wordRR 0x02#6 x y
  | .andRK x kk => wordRK 0x03#6 x kk
  | .orRR x y => wordRR 0x04#6 x y
  | .orRK x kk => wordRK 0x05#6 x kk
  | .xorRR x y => wordRR 0x06#6 x y
  | .xorRK x kk => wordRK 0x07#6 x kk
  | .jump aaa => wordA 0x22#6 aaa
  | .jumpZ aaa => wordA 0x32#6 aaa
  | .jumpNZ aaa => wordA 0x36#6 aaa
  | .jumpC aaa => wordA 0x3A#6 aaa
  | .jumpNC aaa => wordA 0x3E#6 aaa
  | .jumpAt x y => wordRR 0x26#6 x y
  | .inputRR x y => wordRR 0x08#6 x y
  | .inputRK x pp => wordRK 0x09#6 x pp
  | .outputRR x y => wordRR 0x2C#6 x y
  | .outputRK x pp => wordRK 0x2D#6 x pp
  | .outputK kk p => wordKP kk p
  | .addRR x y => wordRR 0x10#6 x y
  | .addRK x kk => wordRK 0x11#6 x kk
  | .addcyRR x y => wordRR 0x12#6 x y
  | .addcyRK x kk => wordRK 0x13#6 x kk
  | .subRR x y => wordRR 0x18#6 x y
  | .subRK x kk => wordRK 0x19#6 x kk
  | .subcyRR x y => wordRR 0x1A#6 x y
  | .subcyRK x kk => wordRK 0x1B#6 x kk
  | .testRR x y => wordRR 0x0C#6 x y
  | .testRK x kk => wordRK 0x0D#6 x kk
  | .testcyRR x y => wordRR 0x0E#6 x y
  | .testcyRK x kk => wordRK 0x0F#6 x kk
  | .compareRR x y => wordRR 0x1C#6 x y
  | .compareRK x kk => wordRK 0x1D#6 x kk
  | .comparecyRR x y => wordRR 0x1E#6 x y
  | .comparecyRK x kk => wordRK 0x1F#6 x kk
  | .regbankA => wordF 0x37#6 0x000#12
  | .regbankB => wordF 0x37#6 0x001#12
  | .storeRR x y => wordRR 0x2E#6 x y
  | .storeRK x ss => wordRK 0x2F#6 x ss
  | .fetchRR x y => wordRR 0x0A#6 x y
  | .fetchRK x ss => wordRK 0x0B#6 x ss
  | .call aaa => wordA 0x20#6 aaa
  | .callZ aaa => wordA 0x30#6 aaa
  | .callNZ aaa => wordA 0x34#6 aaa
  | .callC aaa => wordA 0x38#6 aaa
  | .callNC aaa => wordA 0x3C#6 aaa
  | .callAt x y => wordRR 0x24#6 x y
  | .ret => wordF 0x25#6 0x000#12
  | .retZ => wordF 0x31#6 0x000#12
  | .retNZ => wordF 0x35#6 0x000#12
  | .retC => wordF 0x39#6 0x000#12
  | .retNC => wordF 0x3D#6 0x000#12
  | .loadReturn x kk => wordRK 0x21#6 x kk
  | .hwbuild x => wordSH x 0x80#8

/-! ## The host's reading of a table word -/

/-- The instruction read from a word numbered as spec/opcode_table.json numbers it: the one 18-bit word, bit 0 its least
significant bit; bits above `nbits` are 0, and a bit above 17 is no bit of an instruction word (R70). -/
def decodeTableWord (nbits w : Nat) : Option Instr :=
  if w % 2 ^ nbits < 2 ^ 18 then
    match decode (BitVec.ofNat 18 (w % 2 ^ nbits)) with
    | .instr i => some i
    | .reserved _ => none
  else none

end Sys2Proof
end

