-- ==== Sys2Proof/Machine/State.lean ====
section
/-! DEFINITION. The state of one KCPSM6 (10_state.md), the faults of 93_implementation_defined.md section 1, and reset. -/

namespace Sys2Proof.Machine

/-- A memory whose unit is `w` bits: the cells that are listed, by rising address; an unlisted cell reads as
`Memory.unlisted`. `Memory 8` is a list of `Host.Cell`. -/
abbrev Memory (w : Nat) := List (Nat × BitVec w)

/-- The 32 general registers (10_state.md R20): two banks of 16, separate storage. -/
structure Registers where
  bankA : Vector Byte 16
  bankB : Vector Byte 16
deriving DecidableEq, Repr

/-- A frame of the PC stack (10_state.md R30, R33). The kind is the spec's ghost tag (D9). -/
inductive Frame where
  /-- Pushed by a CALL: the address of that CALL instruction. -/
  | call (addr : ProgAddr)
  /-- Pushed by interrupt entry: the address of the abandoned instruction, `Z`, `C` and `bank` at that moment. -/
  | int (addr : ProgAddr) (z c : Bool) (bank : Bank)
deriving DecidableEq, Repr

/-- The model's faults: the four `raise Undefined(..)` of the spec, and no others. Each is safe: the hardware goes on in a
way the spec does not say, and the model stops. -/
inductive Fault where
  /-- U1: a fetched word matches no row of R78 (30_encoding.md R84, D1). Raised by step. Safe. -/
  | reservedInstruction (why : Reserved)
  /-- U2: a fetch at or beyond the physical program memory (20_memory.md R51, D3). Raised by step. Safe. -/
  | fetchOutsideProgramMemory
  /-- U3: a return of any kind with an empty stack (10_state.md R32, D10). Raised by RETURN, a taken conditional RETURN,
  LOAD&RETURN and RETURNI. Safe. -/
  | stackUnderflow
  /-- U4: a return that finds a frame of the other kind (10_state.md R33, D9). Raised by the same instructions. Safe. -/
  | frameKindMismatch
deriving DecidableEq, Repr

/-- Why the model declines to run. -/
inductive Refusal where
  /-- Raised by exec's arm of an instruction that has no meaning yet; no arm of this model does. Safe. -/
  | notModelled (mnemonic : String)
  /-- Raised by step in a configuration the spec does not accept (93 M4): `program_memory_size` is 0 or above 4096. Safe. -/
  | illegalConfiguration
deriving DecidableEq, Repr

/-- The state. The first nine fields are the spec's whole state (10_state.md); then the parameters of the step relation
(00_scope.md R15), which no step changes; then the environment's side; then the model's own counters. -/
structure State where
  /-- The registers (R20). -/
  regs : Registers
  /-- The active bank (R22). -/
  bank : Bank
  /-- The program counter (R24). -/
  pc : ProgAddr
  /-- The zero flag (R26). -/
  z : Bool
  /-- The carry flag (R27). -/
  c : Bool
  /-- The interrupt enable flag (R29). -/
  ie : Bool
  /-- The PC stack (R30), the frame pushed last at the head. -/
  stack : List Frame
  /-- The scratch pad memory (R34), by location below its size. -/
  spm : Memory 8
  /-- The generics (00_scope.md R6, R7, D24). -/
  generics : Generics
  /-- The program (00_scope.md R7), by address. -/
  program : Memory 18
  /-- The environment's pin levels at the coming step boundaries, as far as listed; `Config.pinLevels` beyond (93 V5). -/
  pins : List Levels
  /-- The bytes the environment presents to the coming INPUTs, as far as listed; `Config.inPort` beyond (93 V4). -/
  inputs : List Byte
  /-- The I/O history, oldest first (20_memory.md R58). -/
  events : List Event
  /-- The model's: how many step boundaries have passed. -/
  boundary : Nat
  /-- The model's: how many resets have been taken. -/
  resets : Nat
  /-- The model's ghost of 60_exceptions.md R268: how many of them a stack overflow caused. -/
  overflows : Nat
  /-- The model's: clock cycles of the executed instructions and interrupt entries (70_reset_and_hazards.md R296, D24). -/
  cycles : Nat
deriving DecidableEq, Repr

/-- The design `State.reset` stands in: the defaults the source states for `hwbuild` and `scratch_pad_memory_size`
(00_scope.md R6). PRESUMED, unsafe: `interrupt_vector` 0x3FF and 2 entry cycles, the family's (log 6, log 8).
DESIGN CHOICE, unsafe: 4096 program words (log 7). -/
def defaultGenerics : Generics :=
  { hwbuild := 0x00#8, interruptVector := 0x3FF#12, scratchPadSize := .bytes64,
    programMemorySize := 4096, interruptEntryCycles := 2 }

/-- The machine right after reset (10_state.md R37, 70_reset_and_hazards.md R290): `pc` 0x000, `IE` 0, bank A, as stated;
the stack empty (D7). DESIGN CHOICE, unsafe: the registers, `Z`, `C` and the scratch pad, for which the spec states no
value, are zero (log 1, log 2, log 3). The program memory holds 0x00000 throughout (00_scope.md R7). -/
def State.reset : State :=
  { regs := ⟨Vector.replicate 16 0x00#8, Vector.replicate 16 0x00#8⟩
    bank := .A
    pc := 0x000#12
    z := false
    c := false
    ie := false
    stack := []
    spm := []
    generics := defaultGenerics
    program := []
    pins := []
    inputs := []
    events := []
    boundary := 0
    resets := 0
    overflows := 0
    cycles := 0 }

end Sys2Proof.Machine
end

