-- ==== Sys2Proof/Machine/Ops.lean ====
section
/-! DEFINITION. The named operations over memory, registers, the PC stack, the ports and the environment; reset; interrupt
entry and the two returns. Every instruction's meaning is written with these. -/

namespace Sys2Proof.Machine

/-! ## Memory -/

/-- What an unlisted cell reads as: 0. For program memory the spec states it (20_memory.md R51); for the scratch pad it is
a DESIGN CHOICE, unsafe (log 3). -/
def Memory.unlisted {w : Nat} : BitVec w := 0#w

/-- The cell at address `a`. -/
def Memory.read {w : Nat} : Memory w → Nat → BitVec w
  | [], _ => Memory.unlisted
  | (k, v) :: m, a => if a = k then v else Memory.read m a

/-- Put `v` in the cell at address `a`, keeping the canonical form. -/
def Memory.write {w : Nat} : Memory w → Nat → BitVec w → Memory w
  | [], a, v => if v = Memory.unlisted then [] else [(a, v)]
  | (k, u) :: m, a, v =>
    if a < k then (if v = Memory.unlisted then (k, u) :: m else (a, v) :: (k, u) :: m)
    else if a = k then (if v = Memory.unlisted then m else (a, v) :: m)
    else (k, u) :: Memory.write m a v

/-- The canonical form from address `lo` on: addresses strictly rising, none listed with what an unlisted cell reads as. -/
def Memory.wfFrom {w : Nat} : Nat → Memory w → Bool
  | _, [] => true
  | lo, (k, v) :: m => decide (lo ≤ k) && (decide (v ≠ Memory.unlisted) && Memory.wfFrom (k + 1) m)

/-- The canonical form. -/
def Memory.wf {w : Nat} (m : Memory w) : Bool := Memory.wfFrom 0 m

/-- Every listed address is below `n`. -/
def Memory.within {w : Nat} (n : Nat) (m : Memory w) : Bool := m.all fun cell => decide (cell.1 < n)

/-- The canonical memory that holds `f lo`, `f (lo + 1)`, … in the `n` cells from `lo` on. -/
def Memory.tabulateFrom {w : Nat} (f : Nat → BitVec w) : (n lo : Nat) → Memory w
  | 0, _ => []
  | n + 1, lo =>
    if f lo = Memory.unlisted then Memory.tabulateFrom f n (lo + 1)
    else (lo, f lo) :: Memory.tabulateFrom f n (lo + 1)

/-- The canonical memory that holds `f 0` to `f (n - 1)`. -/
def Memory.tabulate {w : Nat} (n : Nat) (f : Nat → BitVec w) : Memory w := Memory.tabulateFrom f n 0

/-! ## Registers (10_state.md R20, R22, R23) -/

/-- Register `r` of bank `b`. -/
def Registers.read (g : Registers) (b : Bank) (r : RegNum) : Byte :=
  match b with
  | .A => g.bankA[r.toNat]'r.isLt
  | .B => g.bankB[r.toNat]'r.isLt

/-- Write register `r` of bank `b`; the other bank is separate storage. -/
def Registers.write (g : Registers) (b : Bank) (r : RegNum) (v : Byte) : Registers :=
  match b with
  | .A => { g with bankA := g.bankA.set r.toNat v r.isLt }
  | .B => { g with bankB := g.bankB.set r.toNat v r.isLt }

/-- `regs[b][r]` (R20). -/
def State.reg (s : State) (b : Bank) (r : RegNum) : Byte := s.regs.read b r

/-- `regs[b][r] <- v`. -/
def State.setReg (s : State) (b : Bank) (r : RegNum) (v : Byte) : State := { s with regs := s.regs.write b r v }

/-- `x[r]`: register `r` of the active bank (00_scope.md R11). -/
def State.x (s : State) (r : RegNum) : Byte := s.reg s.bank r

/-- `x[r] <- v`. -/
def State.setX (s : State) (r : RegNum) (v : Byte) : State := s.setReg s.bank r v

/-- `alt[r] <- v`: register `r` of the inactive bank (00_scope.md R11), written by STAR alone. -/
def State.setAlt (s : State) (r : RegNum) (v : Byte) : State := s.setReg s.bank.other r v

/-! ## Flags and control bits -/

/-- Write `Z` and `C` (10_state.md R28). -/
def State.setFlags (s : State) (z c : Bool) : State := { s with z := z, c := c }

/-- Write `IE` (10_state.md R29). -/
def State.setIE (s : State) (ie : Bool) : State := { s with ie := ie }

/-- Write `bank` (10_state.md R22); no register changes. -/
def State.setBank (s : State) (b : Bank) : State := { s with bank := b }

/-! ## Ending an instruction -/

/-- The clock cycles every instruction takes (00_scope.md R8, 70_reset_and_hazards.md R296). -/
def instructionCycles : Nat := 2

/-- End an instruction with `pc <- target`. -/
def State.goto (s : State) (target : ProgAddr) : State :=
  { s with pc := target, cycles := s.cycles + instructionCycles }

/-- End an instruction with `pc <- pc + 1`, modulo 4096 (10_state.md R25; the wrap is D2, log 13). -/
def State.advance (s : State) : State := s.goto (s.pc + 1#12)

/-! ## Scratch pad (20_memory.md R53) -/

/-- Where location `a` lies: `a mod scratch_pad_memory_size`. -/
def State.scratchPadIndex (s : State) (a : Byte) : Nat := a.toNat % s.generics.scratchPadSize.bytes

/-- `MemRead(a, 1)`. -/
def State.memRead (s : State) (a : Byte) : Byte := Memory.read s.spm (s.scratchPadIndex a)

/-- `MemWrite(a, 1, v)`. -/
def State.memWrite (s : State) (a v : Byte) : State :=
  { s with spm := Memory.write s.spm (s.scratchPadIndex a) v }

/-! ## Ports (20_memory.md R55 to R58) -/

/-- Add an event to the history. -/
def State.emit (s : State) (e : Event) : State := { s with events := s.events ++ [e] }

/-- The byte the environment presents when port `p` is read: the next one listed, else a free value (R58). -/
def State.presented (s : State) (p : Byte) : Byte :=
  match s.inputs with
  | v :: _ => v
  | [] => Config.inPort s.boundary s.events p

/-- `PortRead(p)`'s effect on the state: the event `Read(p)`, and the listed answer used up (R55). The byte itself is
`State.presented`. -/
def State.portRead (s : State) (p : Byte) : State := { s with inputs := s.inputs.tail }.emit (.read p)

/-- `PortWrite(p, v)` (R56). -/
def State.portWrite (s : State) (p v : Byte) : State := s.emit (.write p v)

/-- `PortWriteK(p, v)` (R57). -/
def State.portWriteK (s : State) (p : PortK) (v : Byte) : State := s.emit (.writeK p v)

/-! ## Reset (70_reset_and_hazards.md R290 to R292) -/

/-- A register bank after the reset numbered `n`: sixteen free values (D4, D8). -/
def bankAfterReset (n : Nat) (b : Bank) (old : Vector Byte 16) : Vector Byte 16 :=
  Vector.ofFn fun i => Config.registerAfterReset n b i.val old[i]

/-- `Reset()` during a run (R290): `pc` 0, `IE` 0, bank A, the stack empty; `Z`, `C`, the registers and the scratch pad are
free values, since the spec states none (R292; log 4). The program and the generics stand (R292). -/
def State.takeReset (s : State) : State :=
  { s with
    pc := 0x000#12
    ie := false
    bank := .A
    stack := []
    z := Config.zeroAfterReset s.resets s.z
    c := Config.carryAfterReset s.resets s.c
    regs := ⟨bankAfterReset s.resets .A s.regs.bankA, bankAfterReset s.resets .B s.regs.bankB⟩
    spm := Memory.tabulate s.generics.scratchPadSize.bytes fun a =>
      Config.scratchPadAfterReset s.resets a (Memory.read s.spm a)
    resets := s.resets + 1 }

/-- The internal reset on stack overflow (60_exceptions.md R268): the effect of the `reset` input (D15), and the ghost
count. -/
def State.overflowReset (s : State) : State := { s.takeReset with overflows := s.overflows + 1 }

/-! ## The PC stack (10_state.md R30 to R33) -/

/-- The levels of the PC stack (R30). -/
def stackLevels : Nat := 30

/-- `Push(f)`: none where the stack already holds 30 frames, and the internal reset is due (R31). -/
def State.push (s : State) (f : Frame) : Option State :=
  if s.stack.length < stackLevels then some { s with stack := f :: s.stack } else none

/-- `Pop()` of a frame a CALL pushed: its address and the state without it; the faults of R32 and R33. -/
def State.popCall (s : State) : Except Fault (ProgAddr × State) :=
  match s.stack with
  | [] => .error .stackUnderflow
  | .call addr :: rest => .ok (addr, { s with stack := rest })
  | .int _ _ _ _ :: _ => .error .frameKindMismatch

/-- Enter a subroutine at `target` (49_subroutines_version.md R220, R221): push the address of this CALL; at 30 frames the
internal reset happens instead, and nothing else. -/
def State.enterSubroutine (s : State) (target : ProgAddr) : State :=
  match s.push (.call s.pc) with
  | some s' => s'.goto target
  | none => s.overflowReset

/-- Return from a subroutine (R220, R227): pop the address of the CALL and go to the address after it; `load` is what the
instruction does besides (LOAD&RETURN's register), done only where the pop succeeds. -/
def State.returnFromSubroutine (s : State) (load : State → State) : Host.Outcome State Fault Refusal :=
  match s.popCall with
  | .error e => .fault e
  | .ok (addr, s') => .next ((load s').goto (addr + 1#12))

/-! ## The interrupt (60_exceptions.md R254, R256, R258) -/

/-- Interrupt entry (R254), the one exception the machine takes: push the address of the abandoned instruction, `Z`, `C`
and `bank`; `pc <- interrupt_vector`; `IE <- 0`; `IntAck`. At 30 frames the internal reset happens instead (R258). -/
def State.enterInterrupt (s : State) : State :=
  match s.push (.int s.pc s.z s.c s.bank) with
  | some s' =>
    { s' with pc := s.generics.interruptVector, ie := false,
              cycles := s.cycles + s.generics.interruptEntryCycles }.emit .intAck
  | none => s.overflowReset

/-- Return from an interrupt (47_interrupt_handling.md R198, R199): pop the frame, go to its address itself, restore `Z`,
`C` and `bank`, set `IE` as the operand says. -/
def State.returnFromInterrupt (s : State) (ie : Bool) : Host.Outcome State Fault Refusal :=
  match s.stack with
  | [] => .fault .stackUnderflow
  | .call _ :: _ => .fault .frameKindMismatch
  | .int addr z c b :: rest =>
    .next ((({ s with stack := rest }.setFlags z c).setBank b).setIE ie |>.goto addr)

/-! ## Fetch (20_memory.md R51) -/

/-- `ProgRead(a)`: none at or beyond the physical size. -/
def State.progRead (s : State) (a : ProgAddr) : Option IWord :=
  if a.toNat < s.generics.programMemorySize then some (Memory.read s.program a.toNat) else none

/-! ## The step boundary (60_exceptions.md R253, R259) -/

/-- The pin levels at this boundary: the next listed, else a free value (93 V5). -/
def State.levels (s : State) : Levels :=
  match s.pins with
  | l :: _ => l
  | [] => Config.pinLevels s.boundary s.events

/-- The state once the boundary's levels have been sampled: only the environment's bookkeeping moves. -/
def State.passBoundary (s : State) : State := { s with pins := s.pins.tail, boundary := s.boundary + 1 }

/-! ## Placing a program from outside (00_scope.md R7; log 9) -/

/-- Put a word at a program address. -/
def State.placeWord (s : State) (a : ProgAddr) (w : IWord) : State :=
  { s with program := Memory.write s.program a.toNat w }

/-- Make `pc` an address that physically exists, where it is not one already. -/
def State.coverPc (s : State) : State :=
  if s.generics.legal && decide (s.pc.toNat < s.generics.programMemorySize) then s
  else { s with generics := { s.generics with programMemorySize := 4096 } }

/-- Let the environment hold its three pins Low at the coming boundary. -/
def State.quietBoundary (s : State) : State := { s with pins := Levels.quiet :: s.pins.tail }

end Sys2Proof.Machine
end

