-- ==== Sys2Proof/Machine/Flags.lean ====
section
/-! DEFINITION. Every result and flag computation of the spec (10_state.md R28). Arithmetic is computed on unbounded
integers and narrowed at the end (00_scope.md R10). -/

namespace Sys2Proof.Machine

/-- The 8-bit result (or temporary result) of an instruction and the two flags it writes. -/
structure Result where
  value : Byte
  z : Bool
  c : Bool
deriving DecidableEq, Repr

/-- `r == 0x00` (00_scope.md R13). -/
def isZero (r : Byte) : Bool := decide (r = 0x00#8)

/-- `parity(v)`: 1 when `v` has an odd number of 1 bits (00_scope.md R10). -/
def parity (v : Byte) : Bool :=
  v[0] ^^ v[1] ^^ v[2] ^^ v[3] ^^ v[4] ^^ v[5] ^^ v[6] ^^ v[7]

/-- AND, OR, XOR: `Z` from the result, `C` cleared (41_logical.md R110). -/
def logicalResult (r : Byte) : Result := ⟨r, isZero r, false⟩

/-- The integer sum of two bytes and a carry (42_arithmetic.md R123). -/
def sumOf (a b : Byte) (cin : Bool) : Nat := a.toNat + b.toNat + cin.toNat

/-- The integer difference of two bytes and a borrow (42_arithmetic.md R127). -/
def diffOf (a b : Byte) (cin : Bool) : Int := (a.toNat : Int) - (b.toNat : Int) - (cin.toNat : Int)

/-- ADD (R121, R122): neither flag is an input. -/
def addResult (a b : Byte) : Result :=
  let r := BitVec.ofNat 8 (sumOf a b false)
  ⟨r, isZero r, decide (sumOf a b false > 0xFF)⟩

/-- ADDCY (R123, R124): `C` enters the sum, `Z` only the new `Z`. -/
def addcyResult (a b : Byte) (zin cin : Bool) : Result :=
  let r := BitVec.ofNat 8 (sumOf a b cin)
  ⟨r, isZero r && zin, decide (sumOf a b cin > 0xFF)⟩

/-- SUB and COMPARE (R125, R126, 43_test_compare.md R140, R141): `C` is the borrow. -/
def subResult (a b : Byte) : Result :=
  let r := BitVec.ofInt 8 (diffOf a b false)
  ⟨r, isZero r, decide (diffOf a b false < 0)⟩

/-- SUBCY and COMPARECY (R127, R128, R142, R143). -/
def subcyResult (a b : Byte) (zin cin : Bool) : Result :=
  let r := BitVec.ofInt 8 (diffOf a b cin)
  ⟨r, isZero r && zin, decide (diffOf a b cin < 0)⟩

/-- TEST (43_test_compare.md R136, R137): `C` is the parity of the temporary result. -/
def testResult (a b : Byte) : Result := ⟨a &&& b, isZero (a &&& b), parity (a &&& b)⟩

/-- TESTCY (R138, R139). -/
def testcyResult (a b : Byte) (zin cin : Bool) : Result :=
  ⟨a &&& b, isZero (a &&& b) && zin, parity (a &&& b) ^^ cin⟩

/-- Shift left by one bit with `lsb` coming in (44_shift_rotate.md R150): `{v[6:0], lsb}`, `C` the old bit 7. -/
def shiftLeftResult (v : Byte) (lsb : Bool) : Result :=
  let r : Byte := v.extractLsb' 0 7 ++ BitVec.ofBool lsb
  ⟨r, isZero r, v[7]⟩

/-- Shift right by one bit with `msb` coming in (R150): `{msb, v[7:1]}`, `C` the old bit 0. -/
def shiftRightResult (v : Byte) (msb : Bool) : Result :=
  let r : Byte := BitVec.ofBool msb ++ v.extractLsb' 1 7
  ⟨r, isZero r, v[0]⟩

/-- HWBUILD (49_subroutines_version.md R234): `Z` from the value, `C` always set. -/
def hwbuildResult (v : Byte) : Result := ⟨v, isZero v, true⟩

end Sys2Proof.Machine
end

