-- ==== Sys2Proof/Machine/Operands.lean ====
section
/-! DEFINITION. Operand forms (30_encoding.md R79), conditions (48_jump.md R205), and what an instruction does with a
result. -/

namespace Sys2Proof.Machine

/-- The second operand of a two-operand instruction: register `sY` of the active bank, or a constant. -/
inductive Operand where
  | reg (y : RegNum)
  | const (kk : Byte)
deriving DecidableEq, Repr

/-- The value of a second operand; for the indirect forms `(sY)`, the port address or location it holds (R79). -/
def Operand.value (o : Operand) (s : State) : Byte :=
  match o with
  | .reg y => s.x y
  | .const kk => kk

/-- The operand `(sX, sY)` of JUMP@ and CALL@: `{x[X][3:0], x[Y][7:0]}` (R79). -/
def State.pairAddress (s : State) (x y : RegNum) : ProgAddr := (s.x x).extractLsb' 0 4 ++ s.x y

/-- The four conditions of JUMP, CALL and RETURN (48_jump.md R205). -/
inductive Cond where
  | z
  | nz
  | c
  | nc
deriving DecidableEq, Repr

/-- When a condition is true (R205). -/
def Cond.holds (k : Cond) (s : State) : Bool :=
  match k with
  | .z => s.z
  | .nz => !s.z
  | .c => s.c
  | .nc => !s.c

/-- Write a result to `sX`, its flags to `Z` and `C`, and go on. -/
def State.finish (s : State) (x : RegNum) (r : Result) : State :=
  ((s.setX x r.value).setFlags r.z r.c).advance

/-- Write a result's flags, discard the result, and go on (43_test_compare.md R135). -/
def State.finishFlags (s : State) (r : Result) : State := (s.setFlags r.z r.c).advance

/-- Read a port into `sX` and go on (45_input_output.md R171). -/
def State.inputFrom (s : State) (x : RegNum) (p : Byte) : State :=
  ((s.portRead p).setX x (s.presented p)).advance

/-- Load `sX` from a scratch pad location and go on (46_scratch_pad.md R188). -/
def State.fetchFrom (s : State) (x : RegNum) (a : Byte) : State := (s.setX x (s.memRead a)).advance

/-- A conditional transfer: do it where the condition holds, else go on (R205, 49_subroutines_version.md R220). -/
def State.when (s : State) (k : Cond) (taken : Host.Outcome State Fault Refusal) : Host.Outcome State Fault Refusal :=
  if k.holds s then taken else .next s.advance

end Sys2Proof.Machine
end

