-- ==== Sys2Proof/Machine/Arithmetic.lean ====
section
/-! DEFINITION. ADD, ADDCY, SUB and SUBCY (42_arithmetic.md R120). -/

namespace Sys2Proof.Machine

/-- ADD sX, sY (R121). -/
def execAddRR (x y : RegNum) (s : State) : Host.Outcome State Fault Refusal :=
  .next (s.finish x (addResult (s.x x) ((Operand.reg y).value s)))

/-- ADD sX, kk (R122). -/
def execAddRK (x : RegNum) (kk : Byte) (s : State) : Host.Outcome State Fault Refusal :=
  .next (s.finish x (addResult (s.x x) ((Operand.const kk).value s)))

/-- ADDCY sX, sY (R123). -/
def execAddcyRR (x y : RegNum) (s : State) : Host.Outcome State Fault Refusal :=
  .next (s.finish x (addcyResult (s.x x) ((Operand.reg y).value s) s.z s.c))

/-- ADDCY sX, kk (R124). -/
def execAddcyRK (x : RegNum) (kk : Byte) (s : State) : Host.Outcome State Fault Refusal :=
  .next (s.finish x (addcyResult (s.x x) ((Operand.const kk).value s) s.z s.c))

/-- SUB sX, sY (R125). -/
def execSubRR (x y : RegNum) (s : State) : Host.Outcome State Fault Refusal :=
  .next (s.finish x (subResult (s.x x) ((Operand.reg y).value s)))

/-- SUB sX, kk (R126). -/
def execSubRK (x : RegNum) (kk : Byte) (s : State) : Host.Outcome State Fault Refusal :=
  .next (s.finish x (subResult (s.x x) ((Operand.const kk).value s)))

/-- SUBCY sX, sY (R127). -/
def execSubcyRR (x y : RegNum) (s : State) : Host.Outcome State Fault Refusal :=
  .next (s.finish x (subcyResult (s.x x) ((Operand.reg y).value s) s.z s.c))

/-- SUBCY sX, kk (R128). -/
def execSubcyRK (x : RegNum) (kk : Byte) (s : State) : Host.Outcome State Fault Refusal :=
  .next (s.finish x (subcyResult (s.x x) ((Operand.const kk).value s) s.z s.c))

end Sys2Proof.Machine
end

