-- ==== Sys2Proof/Machine/InputOutput.lean ====
section
/-! DEFINITION. INPUT, OUTPUT and OUTPUTK (45_input_output.md R170): one event each, the flags unchanged (D11, log 19). -/

namespace Sys2Proof.Machine

/-- INPUT sX, (sY) (R171). -/
def execInputRR (x y : RegNum) (s : State) : Host.Outcome State Fault Refusal :=
  .next (s.inputFrom x ((Operand.reg y).value s))

/-- INPUT sX, pp (R172). -/
def execInputRK (x : RegNum) (pp : Byte) (s : State) : Host.Outcome State Fault Refusal :=
  .next (s.inputFrom x ((Operand.const pp).value s))

/-- OUTPUT sX, (sY) (R173). -/
def execOutputRR (x y : RegNum) (s : State) : Host.Outcome State Fault Refusal :=
  .next (s.portWrite ((Operand.reg y).value s) (s.x x)).advance

/-- OUTPUT sX, pp (R174). -/
def execOutputRK (x : RegNum) (pp : Byte) (s : State) : Host.Outcome State Fault Refusal :=
  .next (s.portWrite ((Operand.const pp).value s) (s.x x)).advance

/-- OUTPUTK kk, p (R175). -/
def execOutputK (kk : Byte) (p : PortK) (s : State) : Host.Outcome State Fault Refusal :=
  .next (s.portWriteK p kk).advance

end Sys2Proof.Machine
end

