-- ==== Sys2Proof/Machine/InterruptHandling.lean ====
section
/-! DEFINITION. DISABLE INTERRUPT, ENABLE INTERRUPT and RETURNI (47_interrupt_handling.md R195). -/

namespace Sys2Proof.Machine

/-- DISABLE INTERRUPT (R196). -/
def execDisableInterrupt (s : State) : Host.Outcome State Fault Refusal :=
  .next (s.setIE false).advance

/-- ENABLE INTERRUPT (R197). -/
def execEnableInterrupt (s : State) : Host.Outcome State Fault Refusal :=
  .next (s.setIE true).advance

/-- RETURNI DISABLE (R198). -/
def execReturniDisable (s : State) : Host.Outcome State Fault Refusal :=
  s.returnFromInterrupt false

/-- RETURNI ENABLE (R199). -/
def execReturniEnable (s : State) : Host.Outcome State Fault Refusal :=
  s.returnFromInterrupt true

end Sys2Proof.Machine
end

