-- ==== Sys2Proof/Machine/Jump.lean ====
section
/-! DEFINITION. JUMP and JUMP@ (48_jump.md R205): only pc is written. -/

namespace Sys2Proof.Machine

/-- JUMP aaa (R206). -/
def execJump (aaa : ProgAddr) (s : State) : Host.Outcome State Fault Refusal :=
  .next (s.goto aaa)

/-- JUMP Z, aaa (R207). -/
def execJumpZ (aaa : ProgAddr) (s : State) : Host.Outcome State Fault Refusal :=
  s.when .z (.next (s.goto aaa))

/-- JUMP NZ, aaa (R208). -/
def execJumpNZ (aaa : ProgAddr) (s : State) : Host.Outcome State Fault Refusal :=
  s.when .nz (.next (s.goto aaa))

/-- JUMP C, aaa (R209). -/
def execJumpC (aaa : ProgAddr) (s : State) : Host.Outcome State Fault Refusal :=
  s.when .c (.next (s.goto aaa))

/-- JUMP NC, aaa (R210). -/
def execJumpNC (aaa : ProgAddr) (s : State) : Host.Outcome State Fault Refusal :=
  s.when .nc (.next (s.goto aaa))

/-- JUMP@ (sX, sY) (R211). -/
def execJumpAt (x y : RegNum) (s : State) : Host.Outcome State Fault Refusal :=
  .next (s.goto (s.pairAddress x y))

end Sys2Proof.Machine
end

