-- ==== Sys2Proof/Machine/Loading.lean ====
section
/-! DEFINITION. LOAD, STAR and REGBANK (40_register_loading_and_banks.md). All leave the flags alone (R105). -/

namespace Sys2Proof.Machine

/-- LOAD sX, sY (R100). -/
def execLoadRR (x y : RegNum) (s : State) : Host.Outcome State Fault Refusal :=
  .next (s.setX x (s.x y)).advance

/-- LOAD sX, kk (R101). -/
def execLoadRK (x : RegNum) (kk : Byte) (s : State) : Host.Outcome State Fault Refusal :=
  .next (s.setX x kk).advance

/-- STAR sX, sY (R102). -/
def execStar (x y : RegNum) (s : State) : Host.Outcome State Fault Refusal :=
  .next (s.setAlt x (s.x y)).advance

/-- REGBANK A (R103). -/
def execRegbankA (s : State) : Host.Outcome State Fault Refusal :=
  .next (s.setBank .A).advance

/-- REGBANK B (R104). -/
def execRegbankB (s : State) : Host.Outcome State Fault Refusal :=
  .next (s.setBank .B).advance

end Sys2Proof.Machine
end

