-- ==== Sys2Proof/Machine/Logical.lean ====
section
/-! DEFINITION. AND, OR and XOR (41_logical.md R110). -/

namespace Sys2Proof.Machine

/-- AND sX, sY (R111). -/
def execAndRR (x y : RegNum) (s : State) : Host.Outcome State Fault Refusal :=
  .next (s.finish x (logicalResult (s.x x &&& ((Operand.reg y).value s))))

/-- AND sX, kk (R112). -/
def execAndRK (x : RegNum) (kk : Byte) (s : State) : Host.Outcome State Fault Refusal :=
  .next (s.finish x (logicalResult (s.x x &&& ((Operand.const kk).value s))))

/-- OR sX, sY (R113). -/
def execOrRR (x y : RegNum) (s : State) : Host.Outcome State Fault Refusal :=
  .next (s.finish x (logicalResult (s.x x ||| ((Operand.reg y).value s))))

/-- OR sX, kk (R114). -/
def execOrRK (x : RegNum) (kk : Byte) (s : State) : Host.Outcome State Fault Refusal :=
  .next (s.finish x (logicalResult (s.x x ||| ((Operand.const kk).value s))))

/-- XOR sX, sY (R115). -/
def execXorRR (x y : RegNum) (s : State) : Host.Outcome State Fault Refusal :=
  .next (s.finish x (logicalResult (s.x x ^^^ ((Operand.reg y).value s))))

/-- XOR sX, kk (R116). -/
def execXorRK (x : RegNum) (kk : Byte) (s : State) : Host.Outcome State Fault Refusal :=
  .next (s.finish x (logicalResult (s.x x ^^^ ((Operand.const kk).value s))))

end Sys2Proof.Machine
end

