-- ==== Sys2Proof/Machine/ScratchPad.lean ====
section
/-! DEFINITION. STORE and FETCH (46_scratch_pad.md R185). -/

namespace Sys2Proof.Machine

/-- STORE sX, (sY) (R186). -/
def execStoreRR (x y : RegNum) (s : State) : Host.Outcome State Fault Refusal :=
  .next (s.memWrite ((Operand.reg y).value s) (s.x x)).advance

/-- STORE sX, ss (R187). -/
def execStoreRK (x : RegNum) (ss : Byte) (s : State) : Host.Outcome State Fault Refusal :=
  .next (s.memWrite ((Operand.const ss).value s) (s.x x)).advance

/-- FETCH sX, (sY) (R188). -/
def execFetchRR (x y : RegNum) (s : State) : Host.Outcome State Fault Refusal :=
  .next (s.fetchFrom x ((Operand.reg y).value s))

/-- FETCH sX, ss (R189). -/
def execFetchRK (x : RegNum) (ss : Byte) (s : State) : Host.Outcome State Fault Refusal :=
  .next (s.fetchFrom x ((Operand.const ss).value s))

end Sys2Proof.Machine
end

