-- ==== Sys2Proof/Machine/ShiftRotate.lean ====
section
/-! DEFINITION. The ten shifts and rotates (44_shift_rotate.md R150): they differ in the bit that comes in. -/

namespace Sys2Proof.Machine

/-- SL0 sX (R151). -/
def execSl0 (x : RegNum) (s : State) : Host.Outcome State Fault Refusal :=
  .next (s.finish x (shiftLeftResult (s.x x) false))

/-- SL1 sX (R152). -/
def execSl1 (x : RegNum) (s : State) : Host.Outcome State Fault Refusal :=
  .next (s.finish x (shiftLeftResult (s.x x) true))

/-- SLX sX (R153). -/
def execSlx (x : RegNum) (s : State) : Host.Outcome State Fault Refusal :=
  .next (s.finish x (shiftLeftResult (s.x x) (s.x x)[0]))

/-- SLA sX (R154). -/
def execSla (x : RegNum) (s : State) : Host.Outcome State Fault Refusal :=
  .next (s.finish x (shiftLeftResult (s.x x) s.c))

/-- RL sX (R155). -/
def execRl (x : RegNum) (s : State) : Host.Outcome State Fault Refusal :=
  .next (s.finish x (shiftLeftResult (s.x x) (s.x x)[7]))

/-- SR0 sX (R156). -/
def execSr0 (x : RegNum) (s : State) : Host.Outcome State Fault Refusal :=
  .next (s.finish x (shiftRightResult (s.x x) false))

/-- SR1 sX (R157). -/
def execSr1 (x : RegNum) (s : State) : Host.Outcome State Fault Refusal :=
  .next (s.finish x (shiftRightResult (s.x x) true))

/-- SRX sX (R158). -/
def execSrx (x : RegNum) (s : State) : Host.Outcome State Fault Refusal :=
  .next (s.finish x (shiftRightResult (s.x x) (s.x x)[7]))

/-- SRA sX (R159). -/
def execSra (x : RegNum) (s : State) : Host.Outcome State Fault Refusal :=
  .next (s.finish x (shiftRightResult (s.x x) s.c))

/-- RR sX (R160). -/
def execRr (x : RegNum) (s : State) : Host.Outcome State Fault Refusal :=
  .next (s.finish x (shiftRightResult (s.x x) (s.x x)[0]))

end Sys2Proof.Machine
end

