-- ==== Sys2Proof/Machine/Subroutine.lean ====
section
/-! DEFINITION. CALL, CALL@, RETURN, LOAD&RETURN and HWBUILD (49_subroutines_version.md R220, R234). -/

namespace Sys2Proof.Machine

/-- CALL aaa (R221). -/
def execCall (aaa : ProgAddr) (s : State) : Host.Outcome State Fault Refusal :=
  .next (s.enterSubroutine aaa)

/-- CALL Z, aaa (R222). -/
def execCallZ (aaa : ProgAddr) (s : State) : Host.Outcome State Fault Refusal :=
  s.when .z (.next (s.enterSubroutine aaa))

/-- CALL NZ, aaa (R223). -/
def execCallNZ (aaa : ProgAddr) (s : State) : Host.Outcome State Fault Refusal :=
  s.when .nz (.next (s.enterSubroutine aaa))

/-- CALL C, aaa (R224). -/
def execCallC (aaa : ProgAddr) (s : State) : Host.Outcome State Fault Refusal :=
  s.when .c (.next (s.enterSubroutine aaa))

/-- CALL NC, aaa (R225). -/
def execCallNC (aaa : ProgAddr) (s : State) : Host.Outcome State Fault Refusal :=
  s.when .nc (.next (s.enterSubroutine aaa))

/-- CALL@ (sX, sY) (R226). -/
def execCallAt (x y : RegNum) (s : State) : Host.Outcome State Fault Refusal :=
  .next (s.enterSubroutine (s.pairAddress x y))

/-- RETURN (R227). -/
def execRet (s : State) : Host.Outcome State Fault Refusal :=
  s.returnFromSubroutine id

/-- RETURN Z (R228). -/
def execRetZ (s : State) : Host.Outcome State Fault Refusal :=
  s.when .z (s.returnFromSubroutine id)

/-- RETURN NZ (R229). -/
def execRetNZ (s : State) : Host.Outcome State Fault Refusal :=
  s.when .nz (s.returnFromSubroutine id)

/-- RETURN C (R230). -/
def execRetC (s : State) : Host.Outcome State Fault Refusal :=
  s.when .c (s.returnFromSubroutine id)

/-- RETURN NC (R231). -/
def execRetNC (s : State) : Host.Outcome State Fault Refusal :=
  s.when .nc (s.returnFromSubroutine id)

/-- LOAD&RETURN sX, kk (R232). -/
def execLoadReturn (x : RegNum) (kk : Byte) (s : State) : Host.Outcome State Fault Refusal :=
  s.returnFromSubroutine fun t => t.setX x kk

/-- HWBUILD sX (R234). -/
def execHwbuild (x : RegNum) (s : State) : Host.Outcome State Fault Refusal :=
  .next (s.finish x (hwbuildResult s.generics.hwbuild))

end Sys2Proof.Machine
end

