-- ==== Sys2Proof/Machine/TestCompare.lean ====
section
/-! DEFINITION. TEST, TESTCY, COMPARE and COMPARECY (43_test_compare.md R135): flags only, no register is written. -/

namespace Sys2Proof.Machine

/-- TEST sX, sY (R136). -/
def execTestRR (x y : RegNum) (s : State) : Host.Outcome State Fault Refusal :=
  .next (s.finishFlags (testResult (s.x x) ((Operand.reg y).value s)))

/-- TEST sX, kk (R137). -/
def execTestRK (x : RegNum) (kk : Byte) (s : State) : Host.Outcome State Fault Refusal :=
  .next (s.finishFlags (testResult (s.x x) ((Operand.const kk).value s)))

/-- TESTCY sX, sY (R138). -/
def execTestcyRR (x y : RegNum) (s : State) : Host.Outcome State Fault Refusal :=
  .next (s.finishFlags (testcyResult (s.x x) ((Operand.reg y).value s) s.z s.c))

/-- TESTCY sX, kk (R139). -/
def execTestcyRK (x : RegNum) (kk : Byte) (s : State) : Host.Outcome State Fault Refusal :=
  .next (s.finishFlags (testcyResult (s.x x) ((Operand.const kk).value s) s.z s.c))

/-- COMPARE sX, sY (R140). -/
def execCompareRR (x y : RegNum) (s : State) : Host.Outcome State Fault Refusal :=
  .next (s.finishFlags (subResult (s.x x) ((Operand.reg y).value s)))

/-- COMPARE sX, kk (R141). -/
def execCompareRK (x : RegNum) (kk : Byte) (s : State) : Host.Outcome State Fault Refusal :=
  .next (s.finishFlags (subResult (s.x x) ((Operand.const kk).value s)))

/-- COMPARECY sX, sY (R142). -/
def execComparecyRR (x y : RegNum) (s : State) : Host.Outcome State Fault Refusal :=
  .next (s.finishFlags (subcyResult (s.x x) ((Operand.reg y).value s) s.z s.c))

/-- COMPARECY sX, kk (R143). -/
def execComparecyRK (x : RegNum) (kk : Byte) (s : State) : Host.Outcome State Fault Refusal :=
  .next (s.finishFlags (subcyResult (s.x x) ((Operand.const kk).value s) s.z s.c))

end Sys2Proof.Machine
end

