-- ==== Sys2Proof/Machine/Dispatch.lean ====
section
/-! DEFINITION. The dispatch: one arm per constructor of Instr, each one direct call of its meaning. -/

namespace Sys2Proof.Machine

def exec (i : Instr) (s : State) : Host.Outcome State Fault Refusal :=
  match i with
  | .loadRR x y => Sys2Proof.Machine.execLoadRR x y s
  | .loadRK x kk => Sys2Proof.Machine.execLoadRK x kk s
  | .star x y => Sys2Proof.Machine.execStar x y s
  | .disableInterrupt => Sys2Proof.Machine.execDisableInterrupt s
  | .enableInterrupt => Sys2Proof.Machine.execEnableInterrupt s
  | .returniDisable => Sys2Proof.Machine.execReturniDisable s
  | .returniEnable => Sys2Proof.Machine.execReturniEnable s
  | .sl0 x => Sys2Proof.Machine.execSl0 x s
  | .sl1 x => Sys2Proof.Machine.execSl1 x s
  | .slx x => Sys2Proof.Machine.execSlx x s
  | .sla x => Sys2Proof.Machine.execSla x s
  | .rl x => Sys2Proof.Machine.execRl x s
  | .sr0 x => Sys2Proof.Machine.execSr0 x s
  | .sr1 x => Sys2Proof.Machine.execSr1 x s
  | .srx x => Sys2Proof.Machine.execSrx x s
  | .sra x => Sys2Proof.Machine.execSra x s
  | .rr x => Sys2Proof.Machine.execRr x s
  | .andRR x y => Sys2Proof.Machine.execAndRR x y s
  | .andRK x kk => Sys2Proof.Machine.execAndRK x kk s
  | .orRR x y => Sys2Proof.Machine.execOrRR x y s
  | .orRK x kk => Sys2Proof.Machine.execOrRK x kk s
  | .xorRR x y => Sys2Proof.Machine.execXorRR x y s
  | .xorRK x kk => Sys2Proof.Machine.execXorRK x kk s
  | .jump aaa => Sys2Proof.Machine.execJump aaa s
  | .jumpZ aaa => Sys2Proof.Machine.execJumpZ aaa s
  | .jumpNZ aaa => Sys2Proof.Machine.execJumpNZ aaa s
  | .jumpC aaa => Sys2Proof.Machine.execJumpC aaa s
  | .jumpNC aaa => Sys2Proof.Machine.execJumpNC aaa s
  | .jumpAt x y => Sys2Proof.Machine.execJumpAt x y s
  | .inputRR x y => Sys2Proof.Machine.execInputRR x y s
  | .inputRK x pp => Sys2Proof.Machine.execInputRK x pp s
  | .outputRR x y => Sys2Proof.Machine.execOutputRR x y s
  | .outputRK x pp => Sys2Proof.Machine.execOutputRK x pp s
  | .outputK kk p => Sys2Proof.Machine.execOutputK kk p s
  | .addRR x y => Sys2Proof.Machine.execAddRR x y s
  | .addRK x kk => Sys2Proof.Machine.execAddRK x kk s
  | .addcyRR x y => Sys2Proof.Machine.execAddcyRR x y s
  | .addcyRK x kk => Sys2Proof.Machine.execAddcyRK x kk s
  | .subRR x y => Sys2Proof.Machine.execSubRR x y s
  | .subRK x kk => Sys2Proof.Machine.execSubRK x kk s
  | .subcyRR x y => Sys2Proof.Machine.execSubcyRR x y s
  | .subcyRK x kk => Sys2Proof.Machine.execSubcyRK x kk s
  | .testRR x y => Sys2Proof.Machine.execTestRR x y s
  | .testRK x kk => Sys2Proof.Machine.execTestRK x kk s
  | .testcyRR x y => Sys2Proof.Machine.execTestcyRR x y s
  | .testcyRK x kk => Sys2Proof.Machine.execTestcyRK x kk s
  | .compareRR x y => Sys2Proof.Machine.execCompareRR x y s
  | .compareRK x kk => Sys2Proof.Machine.execCompareRK x kk s
  | .comparecyRR x y => Sys2Proof.Machine.execComparecyRR x y s
  | .comparecyRK x kk => Sys2Proof.Machine.execComparecyRK x kk s
  | .regbankA => Sys2Proof.Machine.execRegbankA s
  | .regbankB => Sys2Proof.Machine.execRegbankB s
  | .storeRR x y => Sys2Proof.Machine.execStoreRR x y s
  | .storeRK x ss => Sys2Proof.Machine.execStoreRK x ss s
  | .fetchRR x y => Sys2Proof.Machine.execFetchRR x y s
  | .fetchRK x ss => Sys2Proof.Machine.execFetchRK x ss s
  | .call aaa => Sys2Proof.Machine.execCall aaa s
  | .callZ aaa => Sys2Proof.Machine.execCallZ aaa s
  | .callNZ aaa => Sys2Proof.Machine.execCallNZ aaa s
  | .callC aaa => Sys2Proof.Machine.execCallC aaa s
  | .callNC aaa => Sys2Proof.Machine.execCallNC aaa s
  | .callAt x y => Sys2Proof.Machine.execCallAt x y s
  | .ret => Sys2Proof.Machine.execRet s
  | .retZ => Sys2Proof.Machine.execRetZ s
  | .retNZ => Sys2Proof.Machine.execRetNZ s
  | .retC => Sys2Proof.Machine.execRetC s
  | .retNC => Sys2Proof.Machine.execRetNC s
  | .loadReturn x kk => Sys2Proof.Machine.execLoadReturn x kk s
  | .hwbuild x => Sys2Proof.Machine.execHwbuild x s

end Sys2Proof.Machine
end

