-- ==== Sys2Proof/Machine/Step.lean ====
section
/-! DEFINITION. One step of the machine (60_exceptions.md R259): reset, then sleep, then the interrupt, then the
instruction at pc. -/

namespace Sys2Proof.Machine

/-- Fetch the word at `pc`, decode it, run it (R259, line 4). -/
def State.runInstruction (s : State) : Host.Outcome State Fault Refusal :=
  match s.progRead s.pc with
  | none => .fault .fetchOutsideProgramMemory
  | some w =>
    match decode w with
    | .reserved why => .fault (.reservedInstruction why)
    | .instr i => exec i s

/-- `Step(env)` (R259). The boundary's pin levels are sampled first; the order reset, sleep, interrupt, instruction is D16
(log 20). A configuration the spec does not accept is refused (93 M4). -/
def step (s : State) : Host.Outcome State Fault Refusal :=
  if s.generics.legal then
    if s.levels.reset then .next s.passBoundary.takeReset
    else if s.levels.sleep then .next s.passBoundary
    else if s.ie && s.levels.interrupt then .next s.passBoundary.enterInterrupt
    else s.passBoundary.runInstruction
  else .refused .illegalConfiguration

/-- `s` with the instruction of a table word at `pc`, and with what the fetch needs besides: an address that exists, and
the three pins Low at the coming boundary (log 9). -/
def State.withFetchWord (s : State) (nbits w : Nat) : State :=
  ((s.placeWord s.pc (BitVec.ofNat 18 (w % 2 ^ nbits))).coverPc).quietBoundary

end Sys2Proof.Machine
end

