-- ==== Sys2Proof/Machine/Assembler.lean ====
section
/-! DEFINITION. The assembler syntax the source shows (30_encoding.md section 6, R87 to R92), which 00_scope.md R4 puts in
scope: mnemonics, operand forms, constants, labels, register names, directives, string expansion, the words of a PSM file.
Reading and writing its text is AssemblerText.lean. Text is a list of characters. No step uses this file. -/

namespace Sys2Proof.Asm

open Sys2Proof.Machine (Cond)

/-! ## Mnemonics (R87) -/

/-- The mnemonics of R87, in its order. -/
inductive Mnemonic where
  | load | star | and | or | xor | add | addcy | sub | subcy | test | testcy | compare | comparecy
  | sl0 | sl1 | slx | sla | rl | sr0 | sr1 | srx | sra | rr | regbank | input | output | outputk
  | store | fetch | disableInterrupt | enableInterrupt | returni | jump | jumpAt | call | callAt
  | return | loadReturn | hwbuild
deriving DecidableEq, Repr

/-- A mnemonic as the source spells it (R87; other cases of letters are D26, log 30). -/
def Mnemonic.spelling : Mnemonic → String
  | .load => "LOAD" | .star => "STAR" | .and => "AND" | .or => "OR" | .xor => "XOR"
  | .add => "ADD" | .addcy => "ADDCY" | .sub => "SUB" | .subcy => "SUBCY"
  | .test => "TEST" | .testcy => "TESTCY" | .compare => "COMPARE" | .comparecy => "COMPARECY"
  | .sl0 => "SL0" | .sl1 => "SL1" | .slx => "SLX" | .sla => "SLA" | .rl => "RL"
  | .sr0 => "SR0" | .sr1 => "SR1" | .srx => "SRX" | .sra => "SRA" | .rr => "RR"
  | .regbank => "REGBANK" | .input => "INPUT" | .output => "OUTPUT" | .outputk => "OUTPUTK"
  | .store => "STORE" | .fetch => "FETCH"
  | .disableInterrupt => "DISABLE INTERRUPT" | .enableInterrupt => "ENABLE INTERRUPT"
  | .returni => "RETURNI" | .jump => "JUMP" | .jumpAt => "JUMP@" | .call => "CALL" | .callAt => "CALL@"
  | .return => "RETURN" | .loadReturn => "LOAD&RETURN" | .hwbuild => "HWBUILD"

/-! ## Constants (R88) -/

/-- The value of a digit, 0 to 9 or A to F. -/
def digitValue (ch : Char) : Option Nat :=
  if '0'.toNat ≤ ch.toNat ∧ ch.toNat ≤ '9'.toNat then some (ch.toNat - '0'.toNat)
  else if 'A'.toNat ≤ ch.toNat ∧ ch.toNat ≤ 'F'.toNat then some (ch.toNat - 'A'.toNat + 10)
  else none

/-- Digits of a base, most significant first, after the value `acc`. -/
def readDigitsFrom (base : Nat) : (acc : Nat) → List Char → Option Nat
  | acc, [] => some acc
  | acc, ch :: rest =>
    match digitValue ch with
    | some d => if d < base then readDigitsFrom base (acc * base + d) rest else none
    | none => none

/-- At least one digit of a base. -/
def readDigits (base : Nat) (text : List Char) : Option Nat :=
  if text = [] then none else readDigitsFrom base 0 text

/-- A constant as R88 writes it, of any number of digits: hexadecimal, decimal with the suffix 'd, binary with the suffix 'b, or one character in
double quotes, which stands for its ASCII code (the ASCII table is general knowledge, 93 G2). -/
def readConstant (text : List Char) : Option Nat :=
  match text with
  | ['"', ch, '"'] => if ch.toNat < 128 then some ch.toNat else none
  | _ =>
    match text.reverse with
    | 'd' :: '\'' :: rest => readDigits 10 rest.reverse
    | 'b' :: '\'' :: rest => readDigits 2 rest.reverse
    | _ => readDigits 16 text

/-! ## Symbols and operands (R87 to R92) -/

/-- What a program's directives and labels define (R89 to R91). -/
structure Symbols where
  /-- `CONSTANT name, value`. -/
  constants : List (String × Nat)
  /-- Line labels and their addresses. -/
  labels : List (String × ProgAddr)
  /-- NAMEREG: another name for a register, in the text only (10_state.md R21). -/
  registers : List (String × RegNum)
  /-- `STRING name$, "text"`: the ASCII codes of its characters. -/
  strings : List (String × List Byte)
deriving DecidableEq, Repr

/-- The upper part of a label's address (R89): `'upper = zext_8(address[11:8])`. -/
def upperOf (a : ProgAddr) : Byte := (a.extractLsb' 8 4).zeroExtend 8

/-- The lower eight bits of a label's address (R89): `'lower = address[7:0]`. -/
def lowerOf (a : ProgAddr) : Byte := a.extractLsb' 0 8

/-- A number as written in an operand. -/
inductive Expr where
  /-- A constant's text (R88). -/
  | text (cs : List Char)
  /-- A name defined by CONSTANT (R88). -/
  | name (n : String)
  /-- A line label as an address (R89). -/
  | label (l : String)
  /-- `label'upper` (R89). -/
  | upper (l : String)
  /-- `label'lower` (R89). -/
  | lower (l : String)
  /-- The code of one character of the string named `n`, expanded (R91). -/
  | code (n : String) (b : Byte)
deriving DecidableEq, Repr

/-- The value of a written number. -/
def Expr.value (sym : Symbols) : Expr → Option Nat
  | .text cs => readConstant cs
  | .name n => sym.constants.lookup n
  | .label l => (sym.labels.lookup l).map BitVec.toNat
  | .upper l => (sym.labels.lookup l).map fun a => (upperOf a).toNat
  | .lower l => (sym.labels.lookup l).map fun a => (lowerOf a).toNat
  | .code _ b => some b.toNat

/-- A value of `w` bits; a larger one is refused (R88). DESIGN CHOICE (log 30): every way to write a number is taken wherever
a number stands, as long as its value fits. R89 shows a bare label as an address and `'upper`, `'lower` as a `kk` only; a
bare label below 0x100 is taken as a `kk` too, a name of CONSTANT as an address, `'upper` and `'lower` as a port, a location
or an address. -/
def Expr.bits (sym : Symbols) (w : Nat) (e : Expr) : Option (BitVec w) :=
  match e.value sym with
  | some n => if n < 2 ^ w then some (BitVec.ofNat w n) else none
  | none => none

/-- A register as written: a default name s0 to sF, or a name NAMEREG gave (R88, R90, R92). -/
inductive RegName where
  | default (r : RegNum)
  | renamed (n : String)
deriving DecidableEq, Repr

/-- The register a name stands for. DESIGN CHOICE (log 30): NAMEREG takes no name away, neither the
default one nor one that an earlier NAMEREG gave. -/
def RegName.num (sym : Symbols) : RegName → Option RegNum
  | .default r => some r
  | .renamed n => sym.registers.lookup n

/-- An operand form of R87. -/
inductive Operand where
  /-- `sX`. -/
  | reg (r : RegName)
  /-- A constant, port, location or address. -/
  | value (e : Expr)
  /-- `(sY)`. -/
  | indirect (r : RegName)
  /-- `(sX, sY)`. -/
  | pair (x y : RegName)
  /-- `Z`, `NZ`, `C` or `NC`. -/
  | cond (k : Cond)
  /-- `ENABLE` or `DISABLE`, after RETURNI. -/
  | enable (on : Bool)
  /-- `A` or `B`, after REGBANK. -/
  | bank (b : Bank)
  /-- The name of a string (R91). -/
  | string (n : String)
deriving DecidableEq, Repr

/-! ## Assembling one instruction (R87, R91, R92) -/

/-- Two registers. -/
def withRR (sym : Symbols) (x y : RegName) (f : RegNum → RegNum → Instr) : Option Instr :=
  match x.num sym, y.num sym with
  | some i, some j => some (f i j)
  | _, _ => none

/-- A register and an 8-bit value. -/
def withRK (sym : Symbols) (x : RegName) (e : Expr) (f : RegNum → Byte → Instr) : Option Instr :=
  match x.num sym, e.bits sym 8 with
  | some i, some k => some (f i k)
  | _, _ => none

/-- A register. -/
def withR (sym : Symbols) (x : RegName) (f : RegNum → Instr) : Option Instr := (x.num sym).map f

/-- An address. -/
def withA (sym : Symbols) (e : Expr) (f : ProgAddr → Instr) : Option Instr := (e.bits sym 12).map f

/-- The two-operand forms `sX, sY` and `sX, kk`. -/
def withSecond (sym : Symbols) (f : RegNum → RegNum → Instr) (g : RegNum → Byte → Instr) :
    List Operand → Option Instr
  | [.reg x, .reg y] => withRR sym x y f
  | [.reg x, .value e] => withRK sym x e g
  | _ => none

/-- The two-operand forms `sX, (sY)` and `sX, pp`. -/
def withIndirect (sym : Symbols) (f : RegNum → RegNum → Instr) (g : RegNum → Byte → Instr) :
    List Operand → Option Instr
  | [.reg x, .indirect y] => withRR sym x y f
  | [.reg x, .value e] => withRK sym x e g
  | _ => none

/-- The one-operand form `sX`. -/
def withOne (sym : Symbols) (f : RegNum → Instr) : List Operand → Option Instr
  | [.reg x] => withR sym x f
  | _ => none

/-- The pair form `(sX, sY)`. -/
def withPair (sym : Symbols) (f : RegNum → RegNum → Instr) : List Operand → Option Instr
  | [.pair x y] => withRR sym x y f
  | _ => none

/-- An address, alone or after a condition. -/
def withTarget (sym : Symbols) (f : ProgAddr → Instr) (g : Cond → ProgAddr → Instr) : List Operand → Option Instr
  | [.value e] => withA sym e f
  | [.cond k, .value e] => withA sym e (g k)
  | _ => none

/-- The conditional JUMPs. -/
def jumpIf : Cond → ProgAddr → Instr
  | .z => .jumpZ | .nz => .jumpNZ | .c => .jumpC | .nc => .jumpNC

/-- The conditional CALLs. -/
def callIf : Cond → ProgAddr → Instr
  | .z => .callZ | .nz => .callNZ | .c => .callC | .nc => .callNC

/-- The conditional RETURNs. -/
def returnIf : Cond → Instr
  | .z => .retZ | .nz => .retNZ | .c => .retC | .nc => .retNC

/-- The instruction a mnemonic and its operands stand for; none for an operand form of R87 that the source does not show with
it. How a number in it is written is not looked at here (`Expr.bits`, log 30). STAR's first operand is a default name (R92).
OUTPUTK's constant comes first (R87). -/
def assemble (sym : Symbols) (m : Mnemonic) (ops : List Operand) : Option Instr :=
  match m with
  | .load => withSecond sym .loadRR .loadRK ops
  | .star =>
    match ops with
    | [.reg (.default x), .reg y] => withRR sym (.default x) y .star
    | _ => none
  | .and => withSecond sym .andRR .andRK ops
  | .or => withSecond sym .orRR .orRK ops
  | .xor => withSecond sym .xorRR .xorRK ops
  | .add => withSecond sym .addRR .addRK ops
  | .addcy => withSecond sym .addcyRR .addcyRK ops
  | .sub => withSecond sym .subRR .subRK ops
  | .subcy => withSecond sym .subcyRR .subcyRK ops
  | .test => withSecond sym .testRR .testRK ops
  | .testcy => withSecond sym .testcyRR .testcyRK ops
  | .compare => withSecond sym .compareRR .compareRK ops
  | .comparecy => withSecond sym .comparecyRR .comparecyRK ops
  | .sl0 => withOne sym .sl0 ops
  | .sl1 => withOne sym .sl1 ops
  | .slx => withOne sym .slx ops
  | .sla => withOne sym .sla ops
  | .rl => withOne sym .rl ops
  | .sr0 => withOne sym .sr0 ops
  | .sr1 => withOne sym .sr1 ops
  | .srx => withOne sym .srx ops
  | .sra => withOne sym .sra ops
  | .rr => withOne sym .rr ops
  | .regbank =>
    match ops with
    | [.bank .A] => some .regbankA
    | [.bank .B] => some .regbankB
    | _ => none
  | .input => withIndirect sym .inputRR .inputRK ops
  | .output => withIndirect sym .outputRR .outputRK ops
  | .outputk =>
    match ops with
    | [.value e, .value p] =>
      match e.bits sym 8, p.bits sym 4 with
      | some kk, some port => some (.outputK kk port)
      | _, _ => none
    | _ => none
  | .store => withIndirect sym .storeRR .storeRK ops
  | .fetch => withIndirect sym .fetchRR .fetchRK ops
  | .disableInterrupt => if ops = [] then some .disableInterrupt else none
  | .enableInterrupt => if ops = [] then some .enableInterrupt else none
  | .returni =>
    match ops with
    | [.enable true] => some .returniEnable
    | [.enable false] => some .returniDisable
    | _ => none
  | .jump => withTarget sym .jump jumpIf ops
  | .jumpAt => withPair sym .jumpAt ops
  | .call => withTarget sym .call callIf ops
  | .callAt => withPair sym .callAt ops
  | .return =>
    match ops with
    | [] => some .ret
    | [.cond k] => some (returnIf k)
    | _ => none
  | .loadReturn =>
    match ops with
    | [.reg x, .value e] => withRK sym x e .loadReturn
    | _ => none
  | .hwbuild => withOne sym .hwbuild ops

/-- String expansion (R91), shown for OUTPUTK and LOAD&RETURN: one copy of the instruction per character, in order, each
with the character's code as its constant. None where the operands name no string. -/
def stringCopies (sym : Symbols) (m : Mnemonic) (ops : List Operand) : Option (List (List Operand)) :=
  match m, ops with
  | .outputk, [.string n, p] => (sym.strings.lookup n).map fun bs => bs.map fun b => [.value (.code n b), p]
  | .loadReturn, [x, .string n] => (sym.strings.lookup n).map fun bs => bs.map fun b => [x, .value (.code n b)]
  | _, _ => none

/-- The operands of each instruction of one line: its string expansion, or its own operands alone (R91). -/
def copiesOf (sym : Symbols) (m : Mnemonic) (ops : List Operand) : List (List Operand) :=
  (stringCopies sym m ops).getD [ops]

/-- The instructions of one line (R91). -/
def assembleLine (sym : Symbols) (m : Mnemonic) (ops : List Operand) : Option (List Instr) :=
  (copiesOf sym m ops).mapM (assemble sym m)

/-! ## A PSM file (R87, R89, R90, R91) -/

/-- What a line holds. -/
inductive Body where
  /-- A comment, from its `;` on, or an empty line (R87). -/
  | blank (comment : List Char)
  /-- An instruction. -/
  | instr (m : Mnemonic) (ops : List Operand)
  /-- `ADDRESS aaa`: the next instruction is assembled at `aaa` (R90), which is written as a constant's text (log 30). -/
  | address (a : ProgAddr)
  /-- `CONSTANT name, value` (R90). -/
  | constant (n : String) (e : Expr)
  /-- NAMEREG: another name for a register, for the text that follows (R90); the register's own names stay (log 30). -/
  | namereg (r : RegName) (n : String)
  /-- `STRING name$, "text"` (R91). -/
  | string (n : String) (text : List Char)
deriving DecidableEq, Repr

/-- A line: an optional label and what it holds. -/
structure Line where
  label : Option String
  body : Body
deriving DecidableEq, Repr

/-- The code of a character (93 G2). -/
def charCode (ch : Char) : Option Byte := if ch.toNat < 128 then some (BitVec.ofNat 8 ch.toNat) else none

/-- The symbols after a line: a directive adds what it defines, for the text that follows. None where it defines nothing
that is legal: a constant above 8 bits, a register name that is none, a character that is not ASCII. DESIGN CHOICE (log 30),
where R90 is silent: a name defined again is not refused, and the text that follows has the later meaning; a register renamed
again keeps the names that earlier NAMEREGs gave it beside the later one; NAMEREG's register may be written by any name it has
so far, and a constant, a string, a register and a label may share a name. -/
def Body.define (sym : Symbols) : Body → Option Symbols
  | .blank _ => some sym
  | .instr _ _ => some sym
  | .address _ => some sym
  | .constant n e => (e.bits sym 8).map fun v => { sym with constants := (n, v.toNat) :: sym.constants }
  | .namereg r n => (r.num sym).map fun x => { sym with registers := (n, x) :: sym.registers }
  | .string n text => (text.mapM charCode).map fun bs => { sym with strings := (n, bs) :: sym.strings }

/-- How many words a line makes (R90, R91). -/
def Body.size (sym : Symbols) : Body → Nat
  | .instr m ops => (copiesOf sym m ops).length
  | .blank _ => 0
  | .address _ => 0
  | .constant _ _ => 0
  | .namereg _ _ => 0
  | .string _ _ => 0

/-- The address the next line assembles at. -/
def Body.after (sym : Symbols) (at_ : ProgAddr) (b : Body) : ProgAddr :=
  match b with
  | .address a => a
  | _ => at_ + BitVec.ofNat 12 (b.size sym)

/-- The labels of a file and their addresses: a label names its line's first word (R91). DESIGN CHOICE (log 30), where R89 is
silent: a label on two lines is not refused, and `List.lookup` finds the first line's address; a label on a line without a word
names the address reached before that line, so one on an ADDRESS line, or on a wordless line before it, keeps the address
that the directive leaves. -/
def labelsFrom : Symbols → ProgAddr → List Line → List (String × ProgAddr)
  | _, _, [] => []
  | sym, at_, l :: rest =>
    let more := labelsFrom ((l.body.define sym).getD sym) (l.body.after sym at_) rest
    match l.label with
    | some n => (n, at_) :: more
    | none => more

/-- Words at successive addresses. -/
def placed : ProgAddr → List Instr → List (ProgAddr × IWord)
  | _, [] => []
  | at_, i :: rest => (at_, encode i) :: placed (at_ + 1#12) rest

/-- The words of one line. -/
def Body.words (sym : Symbols) (at_ : ProgAddr) : Body → Option (List (ProgAddr × IWord))
  | .instr m ops => (assembleLine sym m ops).map fun is => placed at_ is
  | .blank _ => some []
  | .address _ => some []
  | .constant _ _ => some []
  | .namereg _ _ => some []
  | .string _ _ => some []

/-- What a file's lines make, from an address on, where `f` says what one line makes: each with the symbols of the lines
before it, at the address it stands at. None where a line makes nothing that is legal. -/
def linesFrom {α : Type} (f : Symbols → ProgAddr → Line → Option (List α)) : Symbols → ProgAddr → List Line → Option (List α)
  | _, _, [] => some []
  | sym, at_, l :: rest =>
    match f sym at_ l, l.body.define sym with
    | some made, some sym' => (linesFrom f sym' (l.body.after sym at_) rest).map fun more => made ++ more
    | _, _ => none

/-- The symbols a file starts from: its own labels (R89), and nothing else defined yet. -/
def fileSymbols (lines : List Line) : Symbols := ⟨[], labelsFrom ⟨[], [], [], []⟩ 0x000#12 lines, [], []⟩

/-- Assemble a file, from address 0x000 on. DESIGN CHOICE (log 30), where R90 is silent: the start at 0x000 without an ADDRESS,
the address after 0xFFF, which is 0x000, and a second word at an address, which stands beside the first. -/
def assembleFile (lines : List Line) : Option (List (ProgAddr × IWord)) :=
  linesFrom (fun sym at_ l => l.body.words sym at_) (fileSymbols lines) 0x000#12 lines

/-! ## An instruction's own operands (R87, R88) -/

/-- A hexadecimal digit. -/
def hexDigit (n : Nat) : Char :=
  if n < 10 then Char.ofNat ('0'.toNat + n) else Char.ofNat ('A'.toNat + (n - 10))

/-- `d` hexadecimal digits of `n`, most significant first. -/
def hexText : (d n : Nat) → List Char
  | 0, _ => []
  | d + 1, n => hexText d (n / 16) ++ [hexDigit (n % 16)]

/-- A register with its default name. -/
def plainReg (r : RegNum) : Operand := .reg (.default r)

/-- A constant of `d` hexadecimal digits. -/
def plainValue (d n : Nat) : Operand := .value (.text (hexText d n))

/-- The mnemonic and operands of an instruction, with default register names and hexadecimal constants (R87, R88). -/
def written : Instr → Mnemonic × List Operand
  | .loadRR x y => (.load, [plainReg x, plainReg y])
  | .loadRK x kk => (.load, [plainReg x, plainValue 2 kk.toNat])
  | .star x y => (.star, [plainReg x, plainReg y])
  | .disableInterrupt => (.disableInterrupt, [])
  | .enableInterrupt => (.enableInterrupt, [])
  | .returniDisable => (.returni, [.enable false])
  | .returniEnable => (.returni, [.enable true])
  | .sl0 x => (.sl0, [plainReg x])
  | .sl1 x => (.sl1, [plainReg x])
  | .slx x => (.slx, [plainReg x])
  | .sla x => (.sla, [plainReg x])
  | .rl x => (.rl, [plainReg x])
  | .sr0 x => (.sr0, [plainReg x])
  | .sr1 x => (.sr1, [plainReg x])
  | .srx x => (.srx, [plainReg x])
  | .sra x => (.sra, [plainReg x])
  | .rr x => (.rr, [plainReg x])
  | .andRR x y => (.and, [plainReg x, plainReg y])
  | .andRK x kk => (.and, [plainReg x, plainValue 2 kk.toNat])
  | .orRR x y => (.or, [plainReg x, plainReg y])
  | .orRK x kk => (.or, [plainReg x, plainValue 2 kk.toNat])
  | .xorRR x y => (.xor, [plainReg x, plainReg y])
  | .xorRK x kk => (.xor, [plainReg x, plainValue 2 kk.toNat])
  | .jump a => (.jump, [plainValue 3 a.toNat])
  | .jumpZ a => (.jump, [.cond .z, plainValue 3 a.toNat])
  | .jumpNZ a => (.jump, [.cond .nz, plainValue 3 a.toNat])
  | .jumpC a => (.jump, [.cond .c, plainValue 3 a.toNat])
  | .jumpNC a => (.jump, [.cond .nc, plainValue 3 a.toNat])
  | .jumpAt x y => (.jumpAt, [.pair (.default x) (.default y)])
  | .inputRR x y => (.input, [plainReg x, .indirect (.default y)])
  | .inputRK x pp => (.input, [plainReg x, plainValue 2 pp.toNat])
  | .outputRR x y => (.output, [plainReg x, .indirect (.default y)])
  | .outputRK x pp => (.output, [plainReg x, plainValue 2 pp.toNat])
  | .outputK kk p => (.outputk, [plainValue 2 kk.toNat, plainValue 1 p.toNat])
  | .addRR x y => (.add, [plainReg x, plainReg y])
  | .addRK x kk => (.add, [plainReg x, plainValue 2 kk.toNat])
  | .addcyRR x y => (.addcy, [plainReg x, plainReg y])
  | .addcyRK x kk => (.addcy, [plainReg x, plainValue 2 kk.toNat])
  | .subRR x y => (.sub, [plainReg x, plainReg y])
  | .subRK x kk => (.sub, [plainReg x, plainValue 2 kk.toNat])
  | .subcyRR x y => (.subcy, [plainReg x, plainReg y])
  | .subcyRK x kk => (.subcy, [plainReg x, plainValue 2 kk.toNat])
  | .testRR x y => (.test, [plainReg x, plainReg y])
  | .testRK x kk => (.test, [plainReg x, plainValue 2 kk.toNat])
  | .testcyRR x y => (.testcy, [plainReg x, plainReg y])
  | .testcyRK x kk => (.testcy, [plainReg x, plainValue 2 kk.toNat])
  | .compareRR x y => (.compare, [plainReg x, plainReg y])
  | .compareRK x kk => (.compare, [plainReg x, plainValue 2 kk.toNat])
  | .comparecyRR x y => (.comparecy, [plainReg x, plainReg y])
  | .comparecyRK x kk => (.comparecy, [plainReg x, plainValue 2 kk.toNat])
  | .regbankA => (.regbank, [.bank .A])
  | .regbankB => (.regbank, [.bank .B])
  | .storeRR x y => (.store, [plainReg x, .indirect (.default y)])
  | .storeRK x ss => (.store, [plainReg x, plainValue 2 ss.toNat])
  | .fetchRR x y => (.fetch, [plainReg x, .indirect (.default y)])
  | .fetchRK x ss => (.fetch, [plainReg x, plainValue 2 ss.toNat])
  | .call a => (.call, [plainValue 3 a.toNat])
  | .callZ a => (.call, [.cond .z, plainValue 3 a.toNat])
  | .callNZ a => (.call, [.cond .nz, plainValue 3 a.toNat])
  | .callC a => (.call, [.cond .c, plainValue 3 a.toNat])
  | .callNC a => (.call, [.cond .nc, plainValue 3 a.toNat])
  | .callAt x y => (.callAt, [.pair (.default x) (.default y)])
  | .ret => (.return, [])
  | .retZ => (.return, [.cond .z])
  | .retNZ => (.return, [.cond .nz])
  | .retC => (.return, [.cond .c])
  | .retNC => (.return, [.cond .nc])
  | .loadReturn x kk => (.loadReturn, [plainReg x, plainValue 2 kk.toNat])
  | .hwbuild x => (.hwbuild, [plainReg x])

end Sys2Proof.Asm
end

