-- ==== Sys2Proof/Safety.lean ====
section
/-! DEFINITION. The terms claims about a run use: which instructions may write what (10_state.md), what a step leaves alone,
the invariant of every step, and the end of a run. -/

namespace Sys2Proof

/-! ## Which instructions write what -/

/-- The instructions of the table of 10_state.md R28: all that write `Z` or `C`. -/
def Instr.writesFlags : Instr → Bool
  | .returniDisable | .returniEnable | .sl0 _ | .sl1 _ | .slx _ | .sla _ | .rl _ | .sr0 _ | .sr1 _ | .srx _ |
    .sra _ | .rr _ | .andRR _ _ | .andRK _ _ | .orRR _ _ | .orRK _ _ | .xorRR _ _ | .xorRK _ _ | .addRR _ _ |
    .addRK _ _ | .addcyRR _ _ | .addcyRK _ _ | .subRR _ _ | .subRK _ _ | .subcyRR _ _ | .subcyRK _ _ | .testRR _ _ |
    .testRK _ _ | .testcyRR _ _ | .testcyRK _ _ | .compareRR _ _ | .compareRK _ _ | .comparecyRR _ _ |
    .comparecyRK _ _ | .hwbuild _ => true
  | .loadRR _ _ | .loadRK _ _ | .star _ _ | .disableInterrupt | .enableInterrupt | .jump _ | .jumpZ _ | .jumpNZ _ |
    .jumpC _ | .jumpNC _ | .jumpAt _ _ | .inputRR _ _ | .inputRK _ _ | .outputRR _ _ | .outputRK _ _ |
    .outputK _ _ | .regbankA | .regbankB | .storeRR _ _ | .storeRK _ _ | .fetchRR _ _ | .fetchRK _ _ | .call _ |
    .callZ _ | .callNZ _ | .callC _ | .callNC _ | .callAt _ _ | .ret | .retZ | .retNZ | .retC | .retNC |
    .loadReturn _ _ => false

/-- The instructions that write `IE` (10_state.md R29). -/
def Instr.writesIE : Instr → Bool
  | .disableInterrupt | .enableInterrupt | .returniDisable | .returniEnable => true
  | .loadRR _ _ | .loadRK _ _ | .star _ _ | .sl0 _ | .sl1 _ | .slx _ | .sla _ | .rl _ | .sr0 _ | .sr1 _ | .srx _ |
    .sra _ | .rr _ | .andRR _ _ | .andRK _ _ | .orRR _ _ | .orRK _ _ | .xorRR _ _ | .xorRK _ _ | .jump _ |
    .jumpZ _ | .jumpNZ _ | .jumpC _ | .jumpNC _ | .jumpAt _ _ | .inputRR _ _ | .inputRK _ _ | .outputRR _ _ |
    .outputRK _ _ | .outputK _ _ | .addRR _ _ | .addRK _ _ | .addcyRR _ _ | .addcyRK _ _ | .subRR _ _ | .subRK _ _ |
    .subcyRR _ _ | .subcyRK _ _ | .testRR _ _ | .testRK _ _ | .testcyRR _ _ | .testcyRK _ _ | .compareRR _ _ |
    .compareRK _ _ | .comparecyRR _ _ | .comparecyRK _ _ | .regbankA | .regbankB | .storeRR _ _ | .storeRK _ _ |
    .fetchRR _ _ | .fetchRK _ _ | .call _ | .callZ _ | .callNZ _ | .callC _ | .callNC _ | .callAt _ _ | .ret |
    .retZ | .retNZ | .retC | .retNC | .loadReturn _ _ | .hwbuild _ => false

/-- The instructions that write `bank` (10_state.md R22). -/
def Instr.writesBank : Instr → Bool
  | .returniDisable | .returniEnable | .regbankA | .regbankB => true
  | .loadRR _ _ | .loadRK _ _ | .star _ _ | .disableInterrupt | .enableInterrupt | .sl0 _ | .sl1 _ | .slx _ |
    .sla _ | .rl _ | .sr0 _ | .sr1 _ | .srx _ | .sra _ | .rr _ | .andRR _ _ | .andRK _ _ | .orRR _ _ | .orRK _ _ |
    .xorRR _ _ | .xorRK _ _ | .jump _ | .jumpZ _ | .jumpNZ _ | .jumpC _ | .jumpNC _ | .jumpAt _ _ | .inputRR _ _ |
    .inputRK _ _ | .outputRR _ _ | .outputRK _ _ | .outputK _ _ | .addRR _ _ | .addRK _ _ | .addcyRR _ _ |
    .addcyRK _ _ | .subRR _ _ | .subRK _ _ | .subcyRR _ _ | .subcyRK _ _ | .testRR _ _ | .testRK _ _ |
    .testcyRR _ _ | .testcyRK _ _ | .compareRR _ _ | .compareRK _ _ | .comparecyRR _ _ | .comparecyRK _ _ |
    .storeRR _ _ | .storeRK _ _ | .fetchRR _ _ | .fetchRK _ _ | .call _ | .callZ _ | .callNZ _ | .callC _ |
    .callNC _ | .callAt _ _ | .ret | .retZ | .retNZ | .retC | .retNC | .loadReturn _ _ | .hwbuild _ => false

/-- The instructions that can set `pc` otherwise than to `pc + 1` (10_state.md R25). -/
def Instr.isTransfer : Instr → Bool
  | .returniDisable | .returniEnable | .jump _ | .jumpZ _ | .jumpNZ _ | .jumpC _ | .jumpNC _ | .jumpAt _ _ |
    .call _ | .callZ _ | .callNZ _ | .callC _ | .callNC _ | .callAt _ _ | .ret | .retZ | .retNZ | .retC | .retNC |
    .loadReturn _ _ => true
  | .loadRR _ _ | .loadRK _ _ | .star _ _ | .disableInterrupt | .enableInterrupt | .sl0 _ | .sl1 _ | .slx _ |
    .sla _ | .rl _ | .sr0 _ | .sr1 _ | .srx _ | .sra _ | .rr _ | .andRR _ _ | .andRK _ _ | .orRR _ _ | .orRK _ _ |
    .xorRR _ _ | .xorRK _ _ | .inputRR _ _ | .inputRK _ _ | .outputRR _ _ | .outputRK _ _ | .outputK _ _ |
    .addRR _ _ | .addRK _ _ | .addcyRR _ _ | .addcyRK _ _ | .subRR _ _ | .subRK _ _ | .subcyRR _ _ | .subcyRK _ _ |
    .testRR _ _ | .testRK _ _ | .testcyRR _ _ | .testcyRK _ _ | .compareRR _ _ | .compareRK _ _ | .comparecyRR _ _ |
    .comparecyRK _ _ | .regbankA | .regbankB | .storeRR _ _ | .storeRK _ _ | .fetchRR _ _ | .fetchRK _ _ |
    .hwbuild _ => false

/-- The instructions that push a frame (10_state.md R30). -/
def Instr.isCall : Instr → Bool
  | .call _ | .callZ _ | .callNZ _ | .callC _ | .callNC _ | .callAt _ _ => true
  | .loadRR _ _ | .loadRK _ _ | .star _ _ | .disableInterrupt | .enableInterrupt | .returniDisable |
    .returniEnable | .sl0 _ | .sl1 _ | .slx _ | .sla _ | .rl _ | .sr0 _ | .sr1 _ | .srx _ | .sra _ | .rr _ |
    .andRR _ _ | .andRK _ _ | .orRR _ _ | .orRK _ _ | .xorRR _ _ | .xorRK _ _ | .jump _ | .jumpZ _ | .jumpNZ _ |
    .jumpC _ | .jumpNC _ | .jumpAt _ _ | .inputRR _ _ | .inputRK _ _ | .outputRR _ _ | .outputRK _ _ |
    .outputK _ _ | .addRR _ _ | .addRK _ _ | .addcyRR _ _ | .addcyRK _ _ | .subRR _ _ | .subRK _ _ | .subcyRR _ _ |
    .subcyRK _ _ | .testRR _ _ | .testRK _ _ | .testcyRR _ _ | .testcyRK _ _ | .compareRR _ _ | .compareRK _ _ |
    .comparecyRR _ _ | .comparecyRK _ _ | .regbankA | .regbankB | .storeRR _ _ | .storeRK _ _ | .fetchRR _ _ |
    .fetchRK _ _ | .ret | .retZ | .retNZ | .retC | .retNC | .loadReturn _ _ | .hwbuild _ => false

/-- The instructions that pop a frame a CALL pushed (10_state.md R33). -/
def Instr.popsCall : Instr → Bool
  | .ret | .retZ | .retNZ | .retC | .retNC | .loadReturn _ _ => true
  | .loadRR _ _ | .loadRK _ _ | .star _ _ | .disableInterrupt | .enableInterrupt | .returniDisable |
    .returniEnable | .sl0 _ | .sl1 _ | .slx _ | .sla _ | .rl _ | .sr0 _ | .sr1 _ | .srx _ | .sra _ | .rr _ |
    .andRR _ _ | .andRK _ _ | .orRR _ _ | .orRK _ _ | .xorRR _ _ | .xorRK _ _ | .jump _ | .jumpZ _ | .jumpNZ _ |
    .jumpC _ | .jumpNC _ | .jumpAt _ _ | .inputRR _ _ | .inputRK _ _ | .outputRR _ _ | .outputRK _ _ |
    .outputK _ _ | .addRR _ _ | .addRK _ _ | .addcyRR _ _ | .addcyRK _ _ | .subRR _ _ | .subRK _ _ | .subcyRR _ _ |
    .subcyRK _ _ | .testRR _ _ | .testRK _ _ | .testcyRR _ _ | .testcyRK _ _ | .compareRR _ _ | .compareRK _ _ |
    .comparecyRR _ _ | .comparecyRK _ _ | .regbankA | .regbankB | .storeRR _ _ | .storeRK _ _ | .fetchRR _ _ |
    .fetchRK _ _ | .call _ | .callZ _ | .callNZ _ | .callC _ | .callNC _ | .callAt _ _ | .hwbuild _ => false

/-- The instructions that pop a frame an interrupt pushed (10_state.md R33). -/
def Instr.popsInt : Instr → Bool
  | .returniDisable | .returniEnable => true
  | .loadRR _ _ | .loadRK _ _ | .star _ _ | .disableInterrupt | .enableInterrupt | .sl0 _ | .sl1 _ | .slx _ |
    .sla _ | .rl _ | .sr0 _ | .sr1 _ | .srx _ | .sra _ | .rr _ | .andRR _ _ | .andRK _ _ | .orRR _ _ | .orRK _ _ |
    .xorRR _ _ | .xorRK _ _ | .jump _ | .jumpZ _ | .jumpNZ _ | .jumpC _ | .jumpNC _ | .jumpAt _ _ | .inputRR _ _ |
    .inputRK _ _ | .outputRR _ _ | .outputRK _ _ | .outputK _ _ | .addRR _ _ | .addRK _ _ | .addcyRR _ _ |
    .addcyRK _ _ | .subRR _ _ | .subRK _ _ | .subcyRR _ _ | .subcyRK _ _ | .testRR _ _ | .testRK _ _ |
    .testcyRR _ _ | .testcyRK _ _ | .compareRR _ _ | .compareRK _ _ | .comparecyRR _ _ | .comparecyRK _ _ |
    .regbankA | .regbankB | .storeRR _ _ | .storeRK _ _ | .fetchRR _ _ | .fetchRK _ _ | .call _ | .callZ _ |
    .callNZ _ | .callC _ | .callNC _ | .callAt _ _ | .ret | .retZ | .retNZ | .retC | .retNC | .loadReturn _ _ |
    .hwbuild _ => false

/-- The instructions that emit an event (20_memory.md R61). -/
def Instr.isPortAccess : Instr → Bool
  | .inputRR _ _ | .inputRK _ _ | .outputRR _ _ | .outputRK _ _ | .outputK _ _ => true
  | .loadRR _ _ | .loadRK _ _ | .star _ _ | .disableInterrupt | .enableInterrupt | .returniDisable |
    .returniEnable | .sl0 _ | .sl1 _ | .slx _ | .sla _ | .rl _ | .sr0 _ | .sr1 _ | .srx _ | .sra _ | .rr _ |
    .andRR _ _ | .andRK _ _ | .orRR _ _ | .orRK _ _ | .xorRR _ _ | .xorRK _ _ | .jump _ | .jumpZ _ | .jumpNZ _ |
    .jumpC _ | .jumpNC _ | .jumpAt _ _ | .addRR _ _ | .addRK _ _ | .addcyRR _ _ | .addcyRK _ _ | .subRR _ _ |
    .subRK _ _ | .subcyRR _ _ | .subcyRK _ _ | .testRR _ _ | .testRK _ _ | .testcyRR _ _ | .testcyRK _ _ |
    .compareRR _ _ | .compareRK _ _ | .comparecyRR _ _ | .comparecyRK _ _ | .regbankA | .regbankB | .storeRR _ _ |
    .storeRK _ _ | .fetchRR _ _ | .fetchRK _ _ | .call _ | .callZ _ | .callNZ _ | .callC _ | .callNC _ |
    .callAt _ _ | .ret | .retZ | .retNZ | .retC | .retNC | .loadReturn _ _ | .hwbuild _ => false

/-- The instructions that write the scratch pad (10_state.md R34). -/
def Instr.storesToScratchPad : Instr → Bool
  | .storeRR _ _ | .storeRK _ _ => true
  | .loadRR _ _ | .loadRK _ _ | .star _ _ | .disableInterrupt | .enableInterrupt | .returniDisable |
    .returniEnable | .sl0 _ | .sl1 _ | .slx _ | .sla _ | .rl _ | .sr0 _ | .sr1 _ | .srx _ | .sra _ | .rr _ |
    .andRR _ _ | .andRK _ _ | .orRR _ _ | .orRK _ _ | .xorRR _ _ | .xorRK _ _ | .jump _ | .jumpZ _ | .jumpNZ _ |
    .jumpC _ | .jumpNC _ | .jumpAt _ _ | .inputRR _ _ | .inputRK _ _ | .outputRR _ _ | .outputRK _ _ |
    .outputK _ _ | .addRR _ _ | .addRK _ _ | .addcyRR _ _ | .addcyRK _ _ | .subRR _ _ | .subRK _ _ | .subcyRR _ _ |
    .subcyRK _ _ | .testRR _ _ | .testRK _ _ | .testcyRR _ _ | .testcyRK _ _ | .compareRR _ _ | .compareRK _ _ |
    .comparecyRR _ _ | .comparecyRK _ _ | .regbankA | .regbankB | .fetchRR _ _ | .fetchRK _ _ | .call _ | .callZ _ |
    .callNZ _ | .callC _ | .callNC _ | .callAt _ _ | .ret | .retZ | .retNZ | .retC | .retNC | .loadReturn _ _ |
    .hwbuild _ => false

end Sys2Proof

namespace Sys2Proof.Machine

/-! ## What stays and what changes from `s` to `t` -/

/-- Every register of both banks stays. -/
def SameRegisters (s t : State) : Prop := ∀ b r, t.reg b r = s.reg b r

/-- Register `x` of bank `b` holds `v`; every other register of both banks stays. -/
def OnlyRegister (s t : State) (b : Bank) (x : RegNum) (v : Byte) : Prop :=
  ∀ b' r, t.reg b' r = if b' = b ∧ r = x then v else s.reg b' r

/-- Both flags stay. -/
def SameFlags (s t : State) : Prop := t.z = s.z ∧ t.c = s.c

/-- The flags are `z` and `c`. -/
def FlagsAre (t : State) (z c : Bool) : Prop := t.z = z ∧ t.c = c

/-- `IE` and `bank` stay. -/
def SameControl (s t : State) : Prop := t.ie = s.ie ∧ t.bank = s.bank

/-- Every location of the scratch pad reads as before. -/
def SameScratchPad (s t : State) : Prop := ∀ a : Byte, t.memRead a = s.memRead a

/-- No port event, and no input byte used up. -/
def NoPortEvent (s t : State) : Prop := t.events = s.events ∧ t.inputs = s.inputs

/-- What no instruction changes: the generics, the program, the environment's pins and the step boundary. -/
def SameSurroundings (s t : State) : Prop :=
  t.generics = s.generics ∧ t.program = s.program ∧ t.pins = s.pins ∧ t.boundary = s.boundary

/-- One instruction's time, and no reset: 2 clock cycles (70_reset_and_hazards.md R296); the counters are the
model's (log 24, log 28). -/
def TakesTwoCycles (s t : State) : Prop :=
  t.cycles = s.cycles + 2 ∧ t.resets = s.resets ∧ t.overflows = s.overflows

/-- `pc <- pc + 1`, for the addresses the source speaks of; the wrap at 0xFFF is the spec's decision D2 and is stated by
itself (Obligations.SequentialInstructionsAdvance). -/
def GoesOn (s t : State) : Prop := s.pc ≠ 0xFFF#12 → t.pc = s.pc + 1#12

/-- All but registers, flags, `pc`, the control bits, the stack, the scratch pad and the ports. -/
def OnlyTimePasses (s t : State) : Prop := SameSurroundings s t ∧ TakesTwoCycles s t

/-- `pc` goes on and nothing else changes but registers and flags. -/
def OnlyRegistersAndFlags (s t : State) : Prop :=
  GoesOn s t ∧ SameControl s t ∧ t.stack = s.stack ∧ SameScratchPad s t ∧ NoPortEvent s t ∧ OnlyTimePasses s t

/-- Register `x` of the active bank holds `v`, the flags are `z` and `c`, `pc` goes on, nothing else changes. -/
def Computes (s t : State) (x : RegNum) (v : Byte) (z c : Bool) : Prop :=
  OnlyRegister s t s.bank x v ∧ FlagsAre t z c ∧ OnlyRegistersAndFlags s t

/-- The flags are `z` and `c`, `pc` goes on, nothing else changes: no register of either bank. -/
def ComputesFlags (s t : State) (z c : Bool) : Prop :=
  SameRegisters s t ∧ FlagsAre t z c ∧ OnlyRegistersAndFlags s t

/-- Only `pc` changes, to `a` (48_jump.md R205). -/
def OnlyJumps (s t : State) (a : ProgAddr) : Prop :=
  t.pc = a ∧ SameRegisters s t ∧ SameFlags s t ∧ SameControl s t ∧ t.stack = s.stack ∧ SameScratchPad s t ∧
    NoPortEvent s t ∧ OnlyTimePasses s t

/-- Only `pc` changes, and it goes on: a transfer that is not taken. -/
def OnlyGoesOn (s t : State) : Prop :=
  SameRegisters s t ∧ SameFlags s t ∧ OnlyRegistersAndFlags s t

/-- `pc` becomes `a` and the stack `frames`; nothing else changes. -/
def OnlyJumpsWithStack (s t : State) (a : ProgAddr) (frames : List Frame) : Prop :=
  t.pc = a ∧ t.stack = frames ∧ SameRegisters s t ∧ SameFlags s t ∧ SameControl s t ∧ SameScratchPad s t ∧
    NoPortEvent s t ∧ OnlyTimePasses s t

/-- The event `e` is emitted, `pc` goes on, and nothing else changes but registers, flags and the listed input bytes. -/
def OnlyPortEvent (s t : State) (e : Event) : Prop :=
  t.events = s.events ++ [e] ∧ GoesOn s t ∧ SameControl s t ∧ t.stack = s.stack ∧ SameScratchPad s t ∧
    OnlyTimePasses s t

/-- What every reset leaves that the spec states or decides (70_reset_and_hazards.md R290, D7): nothing is said of the
registers, the flags and the scratch pad, whose values are free. That a reset adds no clock cycle is the model's choice
(log 24), since the spec gives it no count (D27); the counter `resets` is the model's (log 28). -/
def IsResetFrom (s t : State) : Prop :=
  t.pc = 0x000#12 ∧ t.ie = false ∧ t.bank = .A ∧ t.stack = [] ∧ t.resets = s.resets + 1 ∧ NoPortEvent s t ∧
    t.generics = s.generics ∧ t.program = s.program ∧ t.pins = s.pins ∧ t.boundary = s.boundary ∧ t.cycles = s.cycles

/-- `s` and `s'` are the same but for the registers of the inactive bank (10_state.md R22, R23). -/
def SameButInactiveBank (s s' : State) : Prop :=
  s'.bank = s.bank ∧ (∀ r, s'.reg s.bank r = s.reg s.bank r) ∧ s'.pc = s.pc ∧ s'.z = s.z ∧ s'.c = s.c ∧ s'.ie = s.ie ∧
    s'.stack = s.stack ∧ s'.spm = s.spm ∧ s'.generics = s.generics ∧ s'.program = s.program ∧ s'.pins = s.pins ∧
    s'.inputs = s.inputs ∧ s'.events = s.events ∧ s'.boundary = s.boundary ∧ s'.resets = s.resets ∧
    s'.overflows = s.overflows ∧ s'.cycles = s.cycles

/-- Two states that an observer of bank `b` and of all that is not a register cannot tell apart. -/
def AgreeOutsideBank (b : Bank) (t t' : State) : Prop :=
  t'.bank = t.bank ∧ (∀ r, t'.reg b r = t.reg b r) ∧ t'.pc = t.pc ∧ t'.z = t.z ∧ t'.c = t.c ∧ t'.ie = t.ie ∧
    t'.stack = t.stack ∧ t'.spm = t.spm ∧ t'.events = t.events ∧ t'.inputs = t.inputs ∧ t'.generics = t.generics ∧
    t'.program = t.program ∧ t'.pins = t.pins ∧ t'.boundary = t.boundary ∧ t'.resets = t.resets ∧
    t'.overflows = t.overflows ∧ t'.cycles = t.cycles

/-! ## Sequences of instructions -/

/-- Run instructions one after another, wherever they stand, stopping at the first that does not complete. -/
def execAll : List Instr → State → Host.Outcome State Fault Refusal
  | [], s => .next s
  | i :: rest, s =>
    match exec i s with
    | .next t => execAll rest t
    | o => o

/-- The value of a register set, least significant byte first (42_arithmetic.md R129). -/
def bytesValue : List Byte → Nat
  | [] => 0
  | b :: rest => b.toNat + 256 * bytesValue rest

/-- ADD of `x` and the second operand. -/
def Operand.add (x : RegNum) : Operand → Instr
  | .reg y => .addRR x y
  | .const kk => .addRK x kk

/-- ADDCY of `x` and the second operand. -/
def Operand.addcy (x : RegNum) : Operand → Instr
  | .reg y => .addcyRR x y
  | .const kk => .addcyRK x kk

/-- SUB of the second operand from `x`. -/
def Operand.sub (x : RegNum) : Operand → Instr
  | .reg y => .subRR x y
  | .const kk => .subRK x kk

/-- SUBCY of the second operand from `x`. -/
def Operand.subcy (x : RegNum) : Operand → Instr
  | .reg y => .subcyRR x y
  | .const kk => .subcyRK x kk

/-- How many 1 bits a byte has. -/
def onesIn (v : Byte) : Nat := ((List.finRange 8).filter fun i => v.getLsbD i).length

/-! ## Step boundaries -/

/-- The environment lets an instruction run at this boundary: no reset, no sleep, and no interrupt that is taken
(60_exceptions.md R259). -/
def State.Undisturbed (s : State) : Prop :=
  s.generics.legal = true ∧ s.levels.reset = false ∧ s.levels.sleep = false ∧
    (s.ie = false ∨ s.levels.interrupt = false)

/-! ## The invariant of every step -/

/-- A configuration the spec accepts, at most 30 frames on the PC stack (10_state.md R30), and a scratch pad in canonical
form that lies within its size (10_state.md R34). -/
structure State.Inv (s : State) : Prop where
  legal : s.generics.legal = true
  depth : s.stack.length ≤ stackLevels
  canonical : Memory.wf s.spm = true
  within : Memory.within s.generics.scratchPadSize.bytes s.spm = true

/-! ## The end of a run (70_reset_and_hazards.md R299, D21) -/

/-- The instruction at `pc` is the unconditional JUMP to `pc` itself, word `0x22000 | pc`, and `IE` is 0. -/
def State.ended (s : State) : Bool :=
  !s.ie && decide (s.progRead s.pc = some (0x22000#18 ||| s.pc.setWidth 18))

end Sys2Proof.Machine
end

