-- ==== Sys2Proof/Certificates/Slice0/Obligations.lean ====
section
/-! DEFINITION. The statements for the provers. `pc <- pc + 1` is written `GoesOn` where a statement follows the source's
words alone; the wrap at 0xFFF (the spec's decision D2, log 13) is in `SequentialInstructionsAdvance`. No statement rests
on a value `State.reset` has by choice, nor on the value of a free value. -/

open Sys2Proof Sys2Proof.Machine

/-! ## Encoding (30_encoding.md) -/

/-- R72, R78: the decoder reads back what the encoder writes, for every instruction and every operand value. -/
def Obligations.DecodeInvertsEncode : Prop :=
  ∀ i : Instr, decode (encode i) = .instr i

/-- R70, R72: the encoder writes back what the decoder read: no bit of an accepted word is ignored. -/
def Obligations.EncodeInvertsDecode : Prop :=
  ∀ (w : IWord) (i : Instr), decode w = .instr i → encode i = w

/-- R78, R84: the decoder accepts a word exactly where it matches a row of the opcode table. The rejection of the rest is
the spec's decision D1 (log 14). -/
def Obligations.DecoderAcceptsExactlyTableWords : Prop :=
  ∀ w : IWord, (∃ i, decode w = .instr i) ↔ ∃ r ∈ opcodeTable, r.matches w = true

/-- R78: "No word matches two rows". -/
def Obligations.NoWordMatchesTwoRows : Prop :=
  ∀ w : IWord, ∀ r ∈ opcodeTable, ∀ r' ∈ opcodeTable, r.matches w = true → r'.matches w = true → r = r'

/-- R84: the four classes of reserved words, each rejected by its name (decision D1, log 14). -/
def Obligations.ReservedWordsRejectedByClass : Prop :=
  ∀ (x y : RegNum) (low : BitVec 4) (sh : Byte) (aaa : ProgAddr),
    (∀ op ∈ [0x15#6, 0x17#6, 0x23#6, 0x27#6, 0x2A#6, 0x33#6, 0x3B#6, 0x3F#6],
      decode (op ++ aaa) = .reserved .unlistedOpcode) ∧
    (low ≠ 0x0#4 →
      ∀ op ∈ [0x00#6, 0x02#6, 0x04#6, 0x06#6, 0x08#6, 0x0A#6, 0x0C#6, 0x0E#6, 0x10#6, 0x12#6, 0x16#6, 0x18#6, 0x1A#6,
              0x1C#6, 0x1E#6, 0x24#6, 0x26#6, 0x2C#6, 0x2E#6],
        decode (op ++ x ++ y ++ low) = .reserved .lowDigit) ∧
    (sh ∉ [0x00#8, 0x02#8, 0x04#8, 0x06#8, 0x07#8, 0x08#8, 0x0A#8, 0x0C#8, 0x0E#8, 0x0F#8, 0x80#8] →
      decode (0x14#6 ++ x ++ sh) = .reserved .shiftSelector) ∧
    (aaa ≠ 0x000#12 → ∀ op ∈ [0x25#6, 0x31#6, 0x35#6, 0x39#6, 0x3D#6],
      decode (op ++ aaa) = .reserved .fixedOperand) ∧
    (aaa ≠ 0x000#12 → aaa ≠ 0x001#12 → ∀ op ∈ [0x28#6, 0x29#6, 0x37#6],
      decode (op ++ aaa) = .reserved .fixedOperand)

/-- R71, R87: words the spec prints decode to the instructions printed beside them. -/
def Obligations.PrintedWordsDecode : Prop :=
  decode 0x01B07#18 = .instr (.loadRK 0xB#4 0x07#8) ∧ decode 0x2202B#18 = .instr (.jump 0x02B#12) ∧
  decode 0x2F63C#18 = .instr (.storeRK 0x6#4 0x3C#8) ∧ decode 0x14080#18 = .instr (.hwbuild 0x0#4) ∧
  decode 0x2B488#18 = .instr (.outputK 0x48#8 0x8#4) ∧ decode 0x2D008#18 = .instr (.outputRK 0x0#4 0x08#8) ∧
  decode 0x21148#18 = .instr (.loadReturn 0x1#4 0x48#8) ∧ decode 0x00000#18 = .instr (.loadRR 0x0#4 0x0#4)

/-- R259: where the environment lets an instruction run and the word at `pc` decodes to `i`, the step is `i`'s meaning, on
the state that differs only by the boundary passed. That reset, sleep and a taken interrupt come first is the spec's
decision D16 (log 20). -/
def Obligations.StepRunsDecodedInstruction : Prop :=
  ∀ (s : State) (w : IWord) (i : Instr),
    s.Undisturbed → s.progRead s.pc = some w → decode w = .instr i → step s = exec i s.passBoundary

/-- A word placed for the next fetch is the instruction the next step runs (the model's loading convention, log 9). -/
def Obligations.PlacedWordRunsNext : Prop :=
  ∀ (s : State) (nbits w : Nat) (i : Instr),
    Memory.wf s.program = true → decodeTableWord nbits w = some i →
      step (s.withFetchWord nbits w) = exec i (s.withFetchWord nbits w).passBoundary

/-! ## Register loading and banks (40_register_loading_and_banks.md) -/

/-- R100, R101. -/
def Obligations.LoadWritesOneRegister : Prop :=
  ∀ (s : State) (x y : RegNum) (kk : Byte),
    decode (0x00#6 ++ x ++ y ++ 0x0#4) = .instr (.loadRR x y) ∧
    (∃ t, exec (.loadRR x y) s = .next t ∧ OnlyRegister s t s.bank x (s.reg s.bank y) ∧ SameFlags s t ∧
      OnlyRegistersAndFlags s t) ∧
    decode (0x01#6 ++ x ++ kk) = .instr (.loadRK x kk) ∧
    (∃ t, exec (.loadRK x kk) s = .next t ∧ OnlyRegister s t s.bank x kk ∧ SameFlags s t ∧ OnlyRegistersAndFlags s t)

/-- R102: STAR writes the inactive bank. -/
def Obligations.StarWritesInactiveBank : Prop :=
  ∀ (s : State) (x y : RegNum),
    decode (0x16#6 ++ x ++ y ++ 0x0#4) = .instr (.star x y) ∧
    ∃ t, exec (.star x y) s = .next t ∧
      OnlyRegister s t (if s.bank = .A then .B else .A) x (s.reg s.bank y) ∧ SameFlags s t ∧ OnlyRegistersAndFlags s t

/-- R103, R104: REGBANK changes `bank` and no register. -/
def Obligations.RegbankSelectsBank : Prop :=
  ∀ s : State,
    decode 0x37000#18 = .instr .regbankA ∧ decode 0x37001#18 = .instr .regbankB ∧
    (∃ t, exec .regbankA s = .next t ∧ t.bank = .A ∧ SameRegisters s t ∧ SameFlags s t ∧ t.ie = s.ie ∧
      t.stack = s.stack ∧ SameScratchPad s t ∧ NoPortEvent s t ∧ OnlyTimePasses s t ∧ GoesOn s t) ∧
    (∃ t, exec .regbankB s = .next t ∧ t.bank = .B ∧ SameRegisters s t ∧ SameFlags s t ∧ t.ie = s.ie ∧
      t.stack = s.stack ∧ SameScratchPad s t ∧ NoPortEvent s t ∧ OnlyTimePasses s t ∧ GoesOn s t)

/-! ## Logical (41_logical.md) -/

/-- R110 to R116: the bitwise result goes to `sX`, `Z` says whether it is zero, `C` is cleared. -/
def Obligations.LogicalInstructionsCompute : Prop :=
  ∀ (s : State) (x y : RegNum) (kk : Byte),
    let a := s.reg s.bank x
    let b := s.reg s.bank y
    (decode (0x02#6 ++ x ++ y ++ 0x0#4) = .instr (.andRR x y) ∧ decode (0x03#6 ++ x ++ kk) = .instr (.andRK x kk) ∧
      decode (0x04#6 ++ x ++ y ++ 0x0#4) = .instr (.orRR x y) ∧ decode (0x05#6 ++ x ++ kk) = .instr (.orRK x kk) ∧
      decode (0x06#6 ++ x ++ y ++ 0x0#4) = .instr (.xorRR x y) ∧ decode (0x07#6 ++ x ++ kk) = .instr (.xorRK x kk)) ∧
    (∃ t, exec (.andRR x y) s = .next t ∧ Computes s t x (a &&& b) (decide (a &&& b = 0x00#8)) false) ∧
    (∃ t, exec (.andRK x kk) s = .next t ∧ Computes s t x (a &&& kk) (decide (a &&& kk = 0x00#8)) false) ∧
    (∃ t, exec (.orRR x y) s = .next t ∧ Computes s t x (a ||| b) (decide (a ||| b = 0x00#8)) false) ∧
    (∃ t, exec (.orRK x kk) s = .next t ∧ Computes s t x (a ||| kk) (decide (a ||| kk = 0x00#8)) false) ∧
    (∃ t, exec (.xorRR x y) s = .next t ∧ Computes s t x (a ^^^ b) (decide (a ^^^ b = 0x00#8)) false) ∧
    (∃ t, exec (.xorRK x kk) s = .next t ∧ Computes s t x (a ^^^ kk) (decide (a ^^^ kk = 0x00#8)) false)

/-! ## Arithmetic (42_arithmetic.md) -/

/-- R121 to R124: the sum of the integers, narrowed; `C` where it exceeds 0xFF; ADDCY's `C` enters the sum and its `Z` the
new `Z`. -/
def Obligations.AdditionInstructionsCompute : Prop :=
  ∀ (s : State) (x y : RegNum) (kk : Byte),
    let a := (s.reg s.bank x).toNat
    let b := (s.reg s.bank y).toNat
    let k := kk.toNat
    let cin := s.c.toNat
    (decode (0x10#6 ++ x ++ y ++ 0x0#4) = .instr (.addRR x y) ∧ decode (0x11#6 ++ x ++ kk) = .instr (.addRK x kk) ∧
      decode (0x12#6 ++ x ++ y ++ 0x0#4) = .instr (.addcyRR x y) ∧
      decode (0x13#6 ++ x ++ kk) = .instr (.addcyRK x kk)) ∧
    (∃ t, exec (.addRR x y) s = .next t ∧
      Computes s t x (BitVec.ofNat 8 (a + b)) (decide ((a + b) % 256 = 0)) (decide (a + b > 0xFF))) ∧
    (∃ t, exec (.addRK x kk) s = .next t ∧
      Computes s t x (BitVec.ofNat 8 (a + k)) (decide ((a + k) % 256 = 0)) (decide (a + k > 0xFF))) ∧
    (∃ t, exec (.addcyRR x y) s = .next t ∧
      Computes s t x (BitVec.ofNat 8 (a + b + cin)) (decide ((a + b + cin) % 256 = 0) && s.z)
        (decide (a + b + cin > 0xFF))) ∧
    (∃ t, exec (.addcyRK x kk) s = .next t ∧
      Computes s t x (BitVec.ofNat 8 (a + k + cin)) (decide ((a + k + cin) % 256 = 0) && s.z)
        (decide (a + k + cin > 0xFF)))

/-- R125 to R128: the difference modulo 256; `C` is the borrow, where the operand (and the borrow coming in) exceeds `sX`. -/
def Obligations.SubtractionInstructionsCompute : Prop :=
  ∀ (s : State) (x y : RegNum) (kk : Byte),
    let a := s.reg s.bank x
    let b := s.reg s.bank y
    let cin := s.c.toNat
    (decode (0x18#6 ++ x ++ y ++ 0x0#4) = .instr (.subRR x y) ∧ decode (0x19#6 ++ x ++ kk) = .instr (.subRK x kk) ∧
      decode (0x1A#6 ++ x ++ y ++ 0x0#4) = .instr (.subcyRR x y) ∧
      decode (0x1B#6 ++ x ++ kk) = .instr (.subcyRK x kk)) ∧
    (∃ t, exec (.subRR x y) s = .next t ∧
      Computes s t x (a - b) (decide (a.toNat = b.toNat)) (decide (a.toNat < b.toNat))) ∧
    (∃ t, exec (.subRK x kk) s = .next t ∧
      Computes s t x (a - kk) (decide (a.toNat = kk.toNat)) (decide (a.toNat < kk.toNat))) ∧
    (∃ t, exec (.subcyRR x y) s = .next t ∧
      Computes s t x (a - b - BitVec.ofNat 8 cin) (decide (((a.toNat : Int) - b.toNat - cin) % 256 = 0) && s.z)
        (decide (a.toNat < b.toNat + cin))) ∧
    (∃ t, exec (.subcyRK x kk) s = .next t ∧
      Computes s t x (a - kk - BitVec.ofNat 8 cin) (decide (((a.toNat : Int) - kk.toNat - cin) % 256 = 0) && s.z)
        (decide (a.toNat < kk.toNat + cin)))

/-- R129: least significant byte first, ADD then ADDCY on each higher byte adds a register set and a value whose bytes are
registers or constants, SUB then SUBCY subtracts them; after the last `C` is the carry or borrow of the whole and `Z` says
whether the whole result is zero. A destination is no later operand, as a register set's distinct registers make it. -/
def Obligations.MultiByteArithmeticOnRegisters : Prop :=
  ∀ (s : State) (x : RegNum) (k : Operand) (rest : List (RegNum × Operand)),
    ((x, k) :: rest).Pairwise (fun q q' => q.1 ≠ q'.1 ∧ q'.2 ≠ .reg q.1) →
    let p := (x, k) :: rest
    let a := bytesValue (p.map fun q => s.reg s.bank q.1)
    let b := bytesValue (p.map fun q => q.2.value s)
    (∃ t, execAll (k.add x :: rest.map fun q => q.2.addcy q.1) s = .next t ∧
      bytesValue (p.map fun q => t.reg s.bank q.1) = (a + b) % 256 ^ p.length ∧
      t.c = decide (256 ^ p.length ≤ a + b) ∧ t.z = decide ((a + b) % 256 ^ p.length = 0) ∧
      (∀ r, (∀ q ∈ p, q.1 ≠ r) → t.reg s.bank r = s.reg s.bank r)) ∧
    (∃ t, execAll (k.sub x :: rest.map fun q => q.2.subcy q.1) s = .next t ∧
      (bytesValue (p.map fun q => t.reg s.bank q.1) : Int) = ((a : Int) - b) % 256 ^ p.length ∧
      t.c = decide (a < b) ∧ t.z = decide (a = b) ∧
      (∀ r, (∀ q ∈ p, q.1 ≠ r) → t.reg s.bank r = s.reg s.bank r))

/-! ## Test and compare (43_test_compare.md) -/

/-- R136 to R138: flags only; `C` says whether the masked value (and the carry coming in) has an odd number of 1 bits. -/
def Obligations.TestInstructionsSetFlags : Prop :=
  ∀ (s : State) (x y : RegNum) (kk : Byte),
    let a := s.reg s.bank x
    let b := s.reg s.bank y
    (decode (0x0C#6 ++ x ++ y ++ 0x0#4) = .instr (.testRR x y) ∧ decode (0x0D#6 ++ x ++ kk) = .instr (.testRK x kk) ∧
      decode (0x0E#6 ++ x ++ y ++ 0x0#4) = .instr (.testcyRR x y) ∧
      decode (0x0F#6 ++ x ++ kk) = .instr (.testcyRK x kk)) ∧
    (∃ t, exec (.testRR x y) s = .next t ∧
      ComputesFlags s t (decide (a &&& b = 0x00#8)) (decide (onesIn (a &&& b) % 2 = 1))) ∧
    (∃ t, exec (.testRK x kk) s = .next t ∧
      ComputesFlags s t (decide (a &&& kk = 0x00#8)) (decide (onesIn (a &&& kk) % 2 = 1))) ∧
    (∃ t, exec (.testcyRR x y) s = .next t ∧
      ComputesFlags s t (decide (a &&& b = 0x00#8) && s.z) (decide ((onesIn (a &&& b) + s.c.toNat) % 2 = 1))) ∧
    (∃ t, exec (.testcyRK x kk) s = .next t ∧
      ComputesFlags s t (decide (a &&& kk = 0x00#8) && s.z) (decide ((onesIn (a &&& kk) + s.c.toNat) % 2 = 1)))

/-- R140 to R142: flags only, those of SUB and SUBCY on the same inputs. -/
def Obligations.CompareInstructionsSetFlags : Prop :=
  ∀ (s : State) (x y : RegNum) (kk : Byte),
    let a := (s.reg s.bank x).toNat
    let b := (s.reg s.bank y).toNat
    let k := kk.toNat
    let cin := s.c.toNat
    (decode (0x1C#6 ++ x ++ y ++ 0x0#4) = .instr (.compareRR x y) ∧
      decode (0x1D#6 ++ x ++ kk) = .instr (.compareRK x kk) ∧
      decode (0x1E#6 ++ x ++ y ++ 0x0#4) = .instr (.comparecyRR x y) ∧
      decode (0x1F#6 ++ x ++ kk) = .instr (.comparecyRK x kk)) ∧
    (∃ t, exec (.compareRR x y) s = .next t ∧ ComputesFlags s t (decide (a = b)) (decide (a < b))) ∧
    (∃ t, exec (.compareRK x kk) s = .next t ∧ ComputesFlags s t (decide (a = k)) (decide (a < k))) ∧
    (∃ t, exec (.comparecyRR x y) s = .next t ∧
      ComputesFlags s t (decide (((a : Int) - b - cin) % 256 = 0) && s.z) (decide (a < b + cin))) ∧
    (∃ t, exec (.comparecyRK x kk) s = .next t ∧
      ComputesFlags s t (decide (((a : Int) - k - cin) % 256 = 0) && s.z) (decide (a < k + cin)))

/-- R143, R144: COMPARE on the least significant byte, then COMPARECY on each higher byte, compares the whole values. -/
def Obligations.MultiByteComparison : Prop :=
  ∀ (s : State) (x : RegNum) (kk : Byte) (rest : List (RegNum × Byte)),
    let p := (x, kk) :: rest
    let a := bytesValue (p.map fun q => s.reg s.bank q.1)
    let b := bytesValue (p.map fun q => q.2)
    ∃ t, execAll (.compareRK x kk :: rest.map fun q => .comparecyRK q.1 q.2) s = .next t ∧
      t.z = decide (a = b) ∧ t.c = decide (a < b) ∧ SameRegisters s t

/-- R139: TEST, then TESTCY on each further byte, tests the whole value: `Z` where every masked byte is zero, `C` where the
masked bytes together have an odd number of 1 bits. -/
def Obligations.MultiByteTest : Prop :=
  ∀ (s : State) (x : RegNum) (kk : Byte) (rest : List (RegNum × Byte)),
    let masked := ((x, kk) :: rest).map fun q => s.reg s.bank q.1 &&& q.2
    ∃ t, execAll (.testRK x kk :: rest.map fun q => .testcyRK q.1 q.2) s = .next t ∧
      t.z = decide (∀ v ∈ masked, v = 0x00#8) ∧ t.c = decide ((masked.map onesIn).sum % 2 = 1) ∧ SameRegisters s t

/-! ## Shift and rotate (44_shift_rotate.md) -/

/-- R151 to R155: the old bit 7 goes to `C`, and the bit that comes in is what tells the five apart. -/
def Obligations.LeftShiftsCompute : Prop :=
  ∀ (s : State) (x : RegNum),
    let v := s.reg s.bank x
    let cin : Byte := if s.c then 0x01#8 else 0x00#8
    (decode (0x14#6 ++ x ++ 0x06#8) = .instr (.sl0 x) ∧ decode (0x14#6 ++ x ++ 0x07#8) = .instr (.sl1 x) ∧
      decode (0x14#6 ++ x ++ 0x04#8) = .instr (.slx x) ∧ decode (0x14#6 ++ x ++ 0x00#8) = .instr (.sla x) ∧
      decode (0x14#6 ++ x ++ 0x02#8) = .instr (.rl x)) ∧
    (∃ t, exec (.sl0 x) s = .next t ∧ Computes s t x (v <<< 1) (decide (v <<< 1 = 0x00#8)) (v.getLsbD 7)) ∧
    (∃ t, exec (.sl1 x) s = .next t ∧ Computes s t x (v <<< 1 ||| 0x01#8) false (v.getLsbD 7)) ∧
    (∃ t, exec (.slx x) s = .next t ∧
      Computes s t x (v <<< 1 ||| (v &&& 0x01#8)) (decide (v <<< 1 ||| (v &&& 0x01#8) = 0x00#8)) (v.getLsbD 7)) ∧
    (∃ t, exec (.sla x) s = .next t ∧
      Computes s t x (v <<< 1 ||| cin) (decide (v <<< 1 ||| cin = 0x00#8)) (v.getLsbD 7)) ∧
    (∃ t, exec (.rl x) s = .next t ∧ Computes s t x (v.rotateLeft 1) (decide (v = 0x00#8)) (v.getLsbD 7))

/-- R156 to R160: the old bit 0 goes to `C`. -/
def Obligations.RightShiftsCompute : Prop :=
  ∀ (s : State) (x : RegNum),
    let v := s.reg s.bank x
    let cin : Byte := if s.c then 0x80#8 else 0x00#8
    (decode (0x14#6 ++ x ++ 0x0E#8) = .instr (.sr0 x) ∧ decode (0x14#6 ++ x ++ 0x0F#8) = .instr (.sr1 x) ∧
      decode (0x14#6 ++ x ++ 0x0A#8) = .instr (.srx x) ∧ decode (0x14#6 ++ x ++ 0x08#8) = .instr (.sra x) ∧
      decode (0x14#6 ++ x ++ 0x0C#8) = .instr (.rr x)) ∧
    (∃ t, exec (.sr0 x) s = .next t ∧ Computes s t x (v >>> 1) (decide (v >>> 1 = 0x00#8)) (v.getLsbD 0)) ∧
    (∃ t, exec (.sr1 x) s = .next t ∧ Computes s t x (v >>> 1 ||| 0x80#8) false (v.getLsbD 0)) ∧
    (∃ t, exec (.srx x) s = .next t ∧
      Computes s t x (v.sshiftRight 1) (decide (v.sshiftRight 1 = 0x00#8)) (v.getLsbD 0)) ∧
    (∃ t, exec (.sra x) s = .next t ∧
      Computes s t x (v >>> 1 ||| cin) (decide (v >>> 1 ||| cin = 0x00#8)) (v.getLsbD 0)) ∧
    (∃ t, exec (.rr x) s = .next t ∧ Computes s t x (v.rotateRight 1) (decide (v = 0x00#8)) (v.getLsbD 0))

/-! ## Input and output (45_input_output.md) -/

/-- R171, R172, R55: `sX` receives the byte the environment presents, which is the next listed one where one is listed
(log 11); one event `Read`. That the flags stay is the spec's decision D11 (log 19). -/
def Obligations.InputCapturesPresentedByte : Prop :=
  ∀ (s : State) (x y : RegNum) (pp : Byte),
    (∀ p v rest, s.inputs = v :: rest → s.presented p = v) ∧
    (∃ t, exec (.inputRR x y) s = .next t ∧ OnlyRegister s t s.bank x (s.presented (s.reg s.bank y)) ∧ SameFlags s t ∧
      t.inputs = s.inputs.tail ∧ OnlyPortEvent s t (.read (s.reg s.bank y))) ∧
    (∃ t, exec (.inputRK x pp) s = .next t ∧ OnlyRegister s t s.bank x (s.presented pp) ∧ SameFlags s t ∧
      t.inputs = s.inputs.tail ∧ OnlyPortEvent s t (.read pp))

/-- R173 to R175, R56, R57: one event and no other change; OUTPUTK's event carries the 4-bit port (D17, log 25). That the
flags stay is the spec's decision D11 (log 19). -/
def Obligations.OutputEmitsOneEvent : Prop :=
  ∀ (s : State) (x y : RegNum) (pp kk : Byte) (p : PortK),
    (∃ t, exec (.outputRR x y) s = .next t ∧ SameRegisters s t ∧ SameFlags s t ∧ t.inputs = s.inputs ∧
      OnlyPortEvent s t (.write (s.reg s.bank y) (s.reg s.bank x))) ∧
    (∃ t, exec (.outputRK x pp) s = .next t ∧ SameRegisters s t ∧ SameFlags s t ∧ t.inputs = s.inputs ∧
      OnlyPortEvent s t (.write pp (s.reg s.bank x))) ∧
    decode (0x2B#6 ++ kk ++ p) = .instr (.outputK kk p) ∧
    (∃ t, exec (.outputK kk p) s = .next t ∧ SameRegisters s t ∧ SameFlags s t ∧ t.inputs = s.inputs ∧
      OnlyPortEvent s t (.writeK p kk))

/-! ## Scratch pad (46_scratch_pad.md, 20_memory.md R53) -/

/-- R186, R187: STORE changes the location it names, taken modulo the size, and no other; no register changes. The premise
is the scratch pad's canonical form (log 27), which every step keeps (`EveryStepKeepsInvariant`). -/
def Obligations.StoreWritesOneLocation : Prop :=
  ∀ (s : State) (x y : RegNum) (ss : Byte), Memory.wf s.spm = true →
    (decode (0x2E#6 ++ x ++ y ++ 0x0#4) = .instr (.storeRR x y) ∧
      decode (0x2F#6 ++ x ++ ss) = .instr (.storeRK x ss)) ∧
    (∀ a : Byte, s.scratchPadIndex a = a.toNat % s.generics.scratchPadSize.bytes) ∧
    (∃ t, exec (.storeRR x y) s = .next t ∧
      (∀ a : Byte, t.memRead a =
        if s.scratchPadIndex a = s.scratchPadIndex (s.reg s.bank y) then s.reg s.bank x else s.memRead a) ∧
      SameRegisters s t ∧ SameFlags s t ∧ GoesOn s t ∧ SameControl s t ∧ t.stack = s.stack ∧ NoPortEvent s t ∧
      OnlyTimePasses s t) ∧
    (∃ t, exec (.storeRK x ss) s = .next t ∧
      (∀ a : Byte, t.memRead a =
        if s.scratchPadIndex a = s.scratchPadIndex ss then s.reg s.bank x else s.memRead a) ∧
      SameRegisters s t ∧ SameFlags s t ∧ GoesOn s t ∧ SameControl s t ∧ t.stack = s.stack ∧ NoPortEvent s t ∧
      OnlyTimePasses s t)

/-- R188, R189: FETCH loads `sX` from the cell at the location modulo the size; the scratch pad and the flags stay. -/
def Obligations.FetchReadsOneLocation : Prop :=
  ∀ (s : State) (x y : RegNum) (ss : Byte),
    let cell := fun a : Byte => Memory.read s.spm (a.toNat % s.generics.scratchPadSize.bytes)
    (decode (0x0A#6 ++ x ++ y ++ 0x0#4) = .instr (.fetchRR x y) ∧
      decode (0x0B#6 ++ x ++ ss) = .instr (.fetchRK x ss)) ∧
    (∃ t, exec (.fetchRR x y) s = .next t ∧ OnlyRegister s t s.bank x (cell (s.reg s.bank y)) ∧ SameFlags s t ∧
      OnlyRegistersAndFlags s t) ∧
    (∃ t, exec (.fetchRK x ss) s = .next t ∧ OnlyRegister s t s.bank x (cell ss) ∧ SameFlags s t ∧
      OnlyRegistersAndFlags s t)

/-- R53, R64: a FETCH after a STORE sees it exactly where the two locations alias. The premise is the scratch pad's canonical
form (log 27). -/
def Obligations.FetchAfterStore : Prop :=
  ∀ (s : State) (x y : RegNum) (a b : Byte), Memory.wf s.spm = true →
    ∃ t, execAll [.storeRK x a, .fetchRK y b] s = .next t ∧
      t.reg s.bank y =
        if b.toNat % s.generics.scratchPadSize.bytes = a.toNat % s.generics.scratchPadSize.bytes
        then s.reg s.bank x else s.memRead b

/-! ## Interrupt handling (47_interrupt_handling.md) -/

/-- R196, R197: `IE` is written and nothing else but `pc`. -/
def Obligations.InterruptEnableInstructions : Prop :=
  ∀ s : State,
    (∃ t, exec .disableInterrupt s = .next t ∧ t.ie = false ∧ t.bank = s.bank ∧ SameRegisters s t ∧ SameFlags s t ∧
      t.stack = s.stack ∧ SameScratchPad s t ∧ NoPortEvent s t ∧ OnlyTimePasses s t ∧ GoesOn s t) ∧
    (∃ t, exec .enableInterrupt s = .next t ∧ t.ie = true ∧ t.bank = s.bank ∧ SameRegisters s t ∧ SameFlags s t ∧
      t.stack = s.stack ∧ SameScratchPad s t ∧ NoPortEvent s t ∧ OnlyTimePasses s t ∧ GoesOn s t)

/-- R198, R199: RETURNI on an interrupt's frame goes to the saved address itself and restores the flags and the bank. -/
def Obligations.ReturniRestoresFrame : Prop :=
  ∀ (s : State) (a : ProgAddr) (z c : Bool) (b : Bank) (rest : List Frame), s.stack = .int a z c b :: rest →
    (∃ t, exec .returniDisable s = .next t ∧ t.pc = a ∧ FlagsAre t z c ∧ t.bank = b ∧ t.ie = false ∧ t.stack = rest ∧
      SameRegisters s t ∧ SameScratchPad s t ∧ NoPortEvent s t ∧ OnlyTimePasses s t) ∧
    (∃ t, exec .returniEnable s = .next t ∧ t.pc = a ∧ FlagsAre t z c ∧ t.bank = b ∧ t.ie = true ∧ t.stack = rest ∧
      SameRegisters s t ∧ SameScratchPad s t ∧ NoPortEvent s t ∧ OnlyTimePasses s t)

/-! ## Jumps (48_jump.md) -/

/-- R206 to R210: a JUMP that is taken sets `pc` to its address, one that is not goes on; nothing else changes. -/
def Obligations.JumpsChangeOnlyPc : Prop :=
  ∀ (s : State) (aaa : ProgAddr),
    (decode (0x22#6 ++ aaa) = .instr (.jump aaa) ∧ decode (0x32#6 ++ aaa) = .instr (.jumpZ aaa) ∧
      decode (0x36#6 ++ aaa) = .instr (.jumpNZ aaa) ∧ decode (0x3A#6 ++ aaa) = .instr (.jumpC aaa) ∧
      decode (0x3E#6 ++ aaa) = .instr (.jumpNC aaa)) ∧
    (∃ t, exec (.jump aaa) s = .next t ∧ OnlyJumps s t aaa) ∧
    (∃ t, exec (.jumpZ aaa) s = .next t ∧ if s.z = true then OnlyJumps s t aaa else OnlyGoesOn s t) ∧
    (∃ t, exec (.jumpNZ aaa) s = .next t ∧ if s.z = false then OnlyJumps s t aaa else OnlyGoesOn s t) ∧
    (∃ t, exec (.jumpC aaa) s = .next t ∧ if s.c = true then OnlyJumps s t aaa else OnlyGoesOn s t) ∧
    (∃ t, exec (.jumpNC aaa) s = .next t ∧ if s.c = false then OnlyJumps s t aaa else OnlyGoesOn s t)

/-- R211: JUMP@ goes to the address of the low four bits of `sX` and all of `sY`. -/
def Obligations.JumpAtUsesRegisterPair : Prop :=
  ∀ (s : State) (x y : RegNum),
    decode (0x26#6 ++ x ++ y ++ 0x0#4) = .instr (.jumpAt x y) ∧
    ∃ t, exec (.jumpAt x y) s = .next t ∧
      OnlyJumps s t (BitVec.ofNat 12 ((s.reg s.bank x).toNat % 16 * 256 + (s.reg s.bank y).toNat))

/-! ## Subroutines (49_subroutines_version.md) -/

/-- R221 to R226, R31: below 30 frames a taken CALL pushes its own address and goes to the target; one that is not taken
goes on, at any depth, with the stack as it was. -/
def Obligations.CallsPushTheirAddress : Prop :=
  ∀ (s : State) (x y : RegNum) (aaa : ProgAddr),
    let pushed := Frame.call s.pc :: s.stack
    (s.stack.length < 30 →
      (∃ t, exec (.call aaa) s = .next t ∧ OnlyJumpsWithStack s t aaa pushed) ∧
      (∃ t, exec (.callAt x y) s = .next t ∧
        OnlyJumpsWithStack s t (BitVec.ofNat 12 ((s.reg s.bank x).toNat % 16 * 256 + (s.reg s.bank y).toNat)) pushed) ∧
      (s.z = true → ∃ t, exec (.callZ aaa) s = .next t ∧ OnlyJumpsWithStack s t aaa pushed) ∧
      (s.z = false → ∃ t, exec (.callNZ aaa) s = .next t ∧ OnlyJumpsWithStack s t aaa pushed) ∧
      (s.c = true → ∃ t, exec (.callC aaa) s = .next t ∧ OnlyJumpsWithStack s t aaa pushed) ∧
      (s.c = false → ∃ t, exec (.callNC aaa) s = .next t ∧ OnlyJumpsWithStack s t aaa pushed)) ∧
    (s.z = false → ∃ t, exec (.callZ aaa) s = .next t ∧ OnlyGoesOn s t) ∧
    (s.z = true → ∃ t, exec (.callNZ aaa) s = .next t ∧ OnlyGoesOn s t) ∧
    (s.c = false → ∃ t, exec (.callC aaa) s = .next t ∧ OnlyGoesOn s t) ∧
    (s.c = true → ∃ t, exec (.callNC aaa) s = .next t ∧ OnlyGoesOn s t)

/-- R268: a taken CALL that finds 30 frames resets the machine instead. That the internal reset has the effect of the
`reset` input, the stack empty included, is the spec's decision (D15, D7; log 18, log 22). That such a CALL adds no clock cycle,
where R296 gives 2 to an instruction while no reset occurs, is the model's choice, as the spec gives a reset no count (D27,
log 24); the counters of resets and overflows are the model's (log 28). -/
def Obligations.CallAtFullStackResets : Prop :=
  ∀ (s : State) (x y : RegNum) (aaa : ProgAddr), 30 ≤ s.stack.length →
    (∃ t, exec (.call aaa) s = .next t ∧ IsResetFrom s t ∧ t.overflows = s.overflows + 1) ∧
    (∃ t, exec (.callAt x y) s = .next t ∧ IsResetFrom s t ∧ t.overflows = s.overflows + 1) ∧
    (s.z = true → ∃ t, exec (.callZ aaa) s = .next t ∧ IsResetFrom s t ∧ t.overflows = s.overflows + 1) ∧
    (s.z = false → ∃ t, exec (.callNZ aaa) s = .next t ∧ IsResetFrom s t ∧ t.overflows = s.overflows + 1) ∧
    (s.c = true → ∃ t, exec (.callC aaa) s = .next t ∧ IsResetFrom s t ∧ t.overflows = s.overflows + 1) ∧
    (s.c = false → ∃ t, exec (.callNC aaa) s = .next t ∧ IsResetFrom s t ∧ t.overflows = s.overflows + 1)

/-- R227 to R231: a taken RETURN on a CALL's frame goes to the address after that CALL (0xFFF + 1 is 0x000 by D2, log 13);
one that is not taken goes on, whatever the stack holds. -/
def Obligations.ReturnsGoAfterTheirCall : Prop :=
  ∀ s : State,
    (∀ (a : ProgAddr) (rest : List Frame), s.stack = .call a :: rest →
      (∃ t, exec .ret s = .next t ∧ OnlyJumpsWithStack s t (a + 1#12) rest) ∧
      (s.z = true → ∃ t, exec .retZ s = .next t ∧ OnlyJumpsWithStack s t (a + 1#12) rest) ∧
      (s.z = false → ∃ t, exec .retNZ s = .next t ∧ OnlyJumpsWithStack s t (a + 1#12) rest) ∧
      (s.c = true → ∃ t, exec .retC s = .next t ∧ OnlyJumpsWithStack s t (a + 1#12) rest) ∧
      (s.c = false → ∃ t, exec .retNC s = .next t ∧ OnlyJumpsWithStack s t (a + 1#12) rest)) ∧
    (s.z = false → ∃ t, exec .retZ s = .next t ∧ OnlyGoesOn s t) ∧
    (s.z = true → ∃ t, exec .retNZ s = .next t ∧ OnlyGoesOn s t) ∧
    (s.c = false → ∃ t, exec .retC s = .next t ∧ OnlyGoesOn s t) ∧
    (s.c = true → ∃ t, exec .retNC s = .next t ∧ OnlyGoesOn s t)

/-- R232: LOAD&RETURN does both at once on a CALL's frame (the wrap of the address is D2, log 13). -/
def Obligations.LoadAndReturnDoesBoth : Prop :=
  ∀ (s : State) (x : RegNum) (kk : Byte) (a : ProgAddr) (rest : List Frame), s.stack = .call a :: rest →
    ∃ t, exec (.loadReturn x kk) s = .next t ∧ t.pc = a + 1#12 ∧ t.stack = rest ∧
      OnlyRegister s t s.bank x kk ∧ SameFlags s t ∧ SameControl s t ∧ SameScratchPad s t ∧ NoPortEvent s t ∧
      OnlyTimePasses s t

/-- R32, R33, R269: a return that pops faults on an empty stack and on a frame of the other kind; LOAD&RETURN then writes
no register, there being no next state (the spec's decisions D9, D10; log 16, log 17). -/
def Obligations.ReturnsFaultWithoutTheirFrame : Prop :=
  ∀ (s : State) (x : RegNum) (kk : Byte),
    (s.stack = [] →
      exec .ret s = .fault .stackUnderflow ∧ exec (.loadReturn x kk) s = .fault .stackUnderflow ∧
      exec .returniDisable s = .fault .stackUnderflow ∧ exec .returniEnable s = .fault .stackUnderflow ∧
      (s.z = true → exec .retZ s = .fault .stackUnderflow) ∧ (s.z = false → exec .retNZ s = .fault .stackUnderflow) ∧
      (s.c = true → exec .retC s = .fault .stackUnderflow) ∧ (s.c = false → exec .retNC s = .fault .stackUnderflow)) ∧
    (∀ a z c b rest, s.stack = .int a z c b :: rest →
      exec .ret s = .fault .frameKindMismatch ∧ exec (.loadReturn x kk) s = .fault .frameKindMismatch ∧
      (s.z = true → exec .retZ s = .fault .frameKindMismatch) ∧
      (s.z = false → exec .retNZ s = .fault .frameKindMismatch) ∧
      (s.c = true → exec .retC s = .fault .frameKindMismatch) ∧
      (s.c = false → exec .retNC s = .fault .frameKindMismatch)) ∧
    (∀ a rest, s.stack = .call a :: rest →
      exec .returniDisable s = .fault .frameKindMismatch ∧ exec .returniEnable s = .fault .frameKindMismatch)

/-- R220, R227: after a CALL below 30 frames, a RETURN from any state whose stack is as the CALL left it goes to the address
after the CALL and leaves the stack as it was before (the wrap of the address is D2, log 13). -/
def Obligations.ReturnMatchesCall : Prop :=
  ∀ (s u : State) (aaa : ProgAddr), s.stack.length < 30 →
    ∃ t, exec (.call aaa) s = .next t ∧
      (u.stack = t.stack →
        ∃ v, exec .ret u = .next v ∧ v.pc = s.pc + 1#12 ∧ v.stack = s.stack ∧ SameRegisters u v ∧ SameFlags u v)

/-- R234: HWBUILD. -/
def Obligations.HwbuildLoadsGeneric : Prop :=
  ∀ (s : State) (x : RegNum),
    decode (0x14#6 ++ x ++ 0x80#8) = .instr (.hwbuild x) ∧
    ∃ t, exec (.hwbuild x) s = .next t ∧
      Computes s t x s.generics.hwbuild (decide (s.generics.hwbuild = 0x00#8)) true

/-! ## All instructions -/

/-- 93 U3, U4: no instruction refuses, and the only ones that can fault are the returns, on an empty stack or on a frame of
the other kind (the spec's decisions D9, D10; log 16, log 17). -/
def Obligations.OnlyReturnsCanFault : Prop :=
  ∀ (i : Instr) (s : State),
    (∃ t, exec i s = .next t) ∨
    (s.stack = [] ∧ (i.popsCall = true ∨ i.popsInt = true) ∧ exec i s = .fault .stackUnderflow) ∨
    (∃ a z c b rest, s.stack = .int a z c b :: rest ∧ i.popsCall = true ∧ exec i s = .fault .frameKindMismatch) ∨
    (∃ a rest, s.stack = .call a :: rest ∧ i.popsInt = true ∧ exec i s = .fault .frameKindMismatch)

/-- R25: every instruction that is no control transfer ends at `pc + 1`, and so does a conditional one that is not taken;
0xFFF is followed by 0x000 (decision D2, log 13). -/
def Obligations.SequentialInstructionsAdvance : Prop :=
  (∀ (i : Instr) (s t : State), i.isTransfer = false → exec i s = .next t → t.pc = s.pc + 1#12) ∧
  (∀ (s t : State) (aaa : ProgAddr),
    (s.z = false → ∀ i ∈ [Instr.jumpZ aaa, .callZ aaa, .retZ], exec i s = .next t → t.pc = s.pc + 1#12) ∧
    (s.z = true → ∀ i ∈ [Instr.jumpNZ aaa, .callNZ aaa, .retNZ], exec i s = .next t → t.pc = s.pc + 1#12) ∧
    (s.c = false → ∀ i ∈ [Instr.jumpC aaa, .callC aaa, .retC], exec i s = .next t → t.pc = s.pc + 1#12) ∧
    (s.c = true → ∀ i ∈ [Instr.jumpNC aaa, .callNC aaa, .retNC], exec i s = .next t → t.pc = s.pc + 1#12))

/-- R28: an instruction outside the table of flag writers leaves both flags as they were. That INPUT, OUTPUT and OUTPUTK are
among these is the spec's decision D11 (R170, log 19). A CALL is spoken of below 30 frames, where it does not reset the
machine; one that is not taken, at any depth, is in `CallsPushTheirAddress`. -/
def Obligations.FlagsWrittenOnlyByTable : Prop :=
  ∀ (i : Instr) (s t : State), i.writesFlags = false → (i.isCall = true → s.stack.length < 30) →
    exec i s = .next t → SameFlags s t

/-- R22, R29, R30: `IE`, `bank` and the stack change by their own instructions only; a CALL, as long as it does not reset
the machine. -/
def Obligations.ControlStateWrittenOnlyByItsInstructions : Prop :=
  ∀ (i : Instr) (s t : State), (i.isCall = true → s.stack.length < 30) → exec i s = .next t →
    (i.writesIE = false → t.ie = s.ie) ∧ (i.writesBank = false → t.bank = s.bank) ∧
    (i.isCall = false → i.popsCall = false → i.popsInt = false → t.stack = s.stack)

/-- R34, R69: only STORE changes the scratch pad; no push, pop or port access reaches it. -/
def Obligations.ScratchPadWrittenOnlyByStore : Prop :=
  ∀ (i : Instr) (s t : State), i.storesToScratchPad = false → (i.isCall = true → s.stack.length < 30) →
    exec i s = .next t → t.spm = s.spm

/-- R22, R23: only STAR changes a register of the inactive bank. -/
def Obligations.InactiveBankWrittenOnlyByStar : Prop :=
  ∀ (i : Instr) (s t : State), (∀ x y, i ≠ .star x y) → (i.isCall = true → s.stack.length < 30) →
    exec i s = .next t → ∀ r, t.reg s.bank.other r = s.reg s.bank.other r

/-- R23: no instruction reads the inactive bank. Two states that differ in it alone give the same outcome, and next states
that differ, if at all, in that bank alone. A CALL that resets the machine, which leaves free values in both banks (log 4),
is not spoken of. -/
def Obligations.InactiveBankIsNotRead : Prop :=
  ∀ (i : Instr) (s s' : State), SameButInactiveBank s s' → (i.isCall = true → s.stack.length < 30) →
    (∀ t, exec i s = .next t → ∃ t', exec i s' = .next t' ∧ AgreeOutsideBank s.bank t t') ∧
    (∀ f, exec i s = .fault f → exec i s' = .fault f) ∧
    (∀ r, exec i s = .refused r → exec i s' = .refused r)

/-- R61: an executed INPUT, OUTPUT or OUTPUTK emits exactly one event, and no other instruction emits any. -/
def Obligations.OneEventPerPortAccess : Prop :=
  ∀ (i : Instr) (s t : State), exec i s = .next t →
    (i.isPortAccess = true → ∃ e, t.events = s.events ++ [e]) ∧ (i.isPortAccess = false → t.events = s.events)

/-- R296: every executed instruction takes 2 clock cycles, taken or not; a CALL, as long as it does not reset the machine.
The counter is the model's (log 24). -/
def Obligations.EveryInstructionTakesTwoCycles : Prop :=
  ∀ (i : Instr) (s t : State), (i.isCall = true → s.stack.length < 30) → exec i s = .next t →
    t.cycles = s.cycles + 2

/-! ## Reset (10_state.md R37, 70_reset_and_hazards.md) -/

/-- R37, R290: what the spec states of the machine after reset, and the stack empty, which is the spec's decision D7
(log 18). -/
def Obligations.ResetStateAsStated : Prop :=
  State.reset.pc = 0x000#12 ∧ State.reset.ie = false ∧ State.reset.bank = .A ∧ State.reset.stack = []

/-- The invariant (R30, R34, 93 M4) holds after reset. The program memory size of `State.reset`, 4096, is the model's choice
(log 7); that the stack is empty is the spec's decision D7 (log 18); that the scratch pad lists nothing, and its canonical
form, are the model's (log 3, log 27). -/
def Obligations.ResetSatisfiesInvariant : Prop := State.Inv State.reset

/-- R291, R259: a step whose boundary has `reset` High gives the reset state, whatever else is presented (D16, D27;
log 20); the stack empty is D7 (log 18). That the step adds no clock cycle is the model's choice, as the spec gives a reset no
count (D27, log 24); the counter of resets is the model's (log 28). -/
def Obligations.ResetPinWins : Prop :=
  ∀ s : State, s.generics.legal = true → s.levels.reset = true →
    ∃ t, step s = .next t ∧ IsResetFrom s.passBoundary t ∧ t.pins = s.pins.tail ∧ t.boundary = s.boundary + 1

/-! ## Sleep and the interrupt (60_exceptions.md) -/

/-- R266: with `sleep` High and `reset` Low the step changes nothing of the machine and emits nothing, whatever the
interrupt's level (D14, D16; log 20). That it adds no clock cycle to the model's counter is the model's choice (93 M6,
log 24). -/
def Obligations.SleepChangesNothing : Prop :=
  ∀ s : State, s.generics.legal = true → s.levels.reset = false → s.levels.sleep = true →
    ∃ t, step s = .next t ∧ t.pc = s.pc ∧ t.regs = s.regs ∧ SameFlags s t ∧ SameControl s t ∧ t.stack = s.stack ∧
      t.spm = s.spm ∧ NoPortEvent s t ∧ t.generics = s.generics ∧ t.program = s.program ∧ t.cycles = s.cycles ∧
      t.resets = s.resets ∧ t.overflows = s.overflows

/-- R253, R254, R260: an interrupt that is taken pushes the address of the abandoned instruction, the flags and the bank,
goes to the vector with `IE` cleared, emits `IntAck` (D29, log 23), and changes nothing else; the time it takes is the
parameter of D24 (log 8), on the model's counter (log 24); when the level is sampled, and that reset and sleep come
first, is D13 and D16 (log 21, log 20). -/
def Obligations.InterruptEntryAsDescribed : Prop :=
  ∀ s : State, s.generics.legal = true → s.levels.reset = false → s.levels.sleep = false → s.ie = true →
    s.levels.interrupt = true → s.stack.length < 30 →
    ∃ t, step s = .next t ∧ t.pc = s.generics.interruptVector ∧ t.ie = false ∧
      t.stack = .int s.pc s.z s.c s.bank :: s.stack ∧ SameRegisters s t ∧ SameFlags s t ∧ t.bank = s.bank ∧
      SameScratchPad s t ∧ t.events = s.events ++ [.intAck] ∧ t.inputs = s.inputs ∧ t.generics = s.generics ∧
      t.program = s.program ∧ t.cycles = s.cycles + s.generics.interruptEntryCycles ∧ t.resets = s.resets

/-- R258: an interrupt taken at 30 frames is the internal reset, which has the effect of the `reset` input (D15, D23; log 22),
the stack empty included (D7, log 18), with no `IntAck` (D29, log 23); when the level is sampled, and that reset and sleep come
first, is D13 and D16 (log 21, log 20). That it adds no clock cycle is the model's choice, as the spec gives a reset no count
(D27, log 24); the counters of resets and overflows are the model's (log 28). -/
def Obligations.InterruptAtFullStackResets : Prop :=
  ∀ s : State, s.generics.legal = true → s.levels.reset = false → s.levels.sleep = false → s.ie = true →
    s.levels.interrupt = true → 30 ≤ s.stack.length →
    ∃ t, step s = .next t ∧ IsResetFrom s.passBoundary t ∧ t.overflows = s.overflows + 1

/-- R255, R256: after an interrupt entry, a RETURNI from any state whose stack is as entry left it resumes at the abandoned
instruction with the flags, the bank and the stack as they were, and keeps what the service routine left in the registers
and the scratch pad. -/
def Obligations.ReturniUndoesInterruptEntry : Prop :=
  ∀ (s u : State), s.stack.length < 30 → u.stack = s.enterInterrupt.stack →
    (∃ v, exec .returniEnable u = .next v ∧ v.pc = s.pc ∧ FlagsAre v s.z s.c ∧ v.bank = s.bank ∧ v.stack = s.stack ∧
      v.ie = true ∧ SameRegisters u v ∧ SameScratchPad u v) ∧
    (∃ v, exec .returniDisable u = .next v ∧ v.pc = s.pc ∧ FlagsAre v s.z s.c ∧ v.bank = s.bank ∧ v.stack = s.stack ∧
      v.ie = false ∧ SameRegisters u v ∧ SameScratchPad u v)

/-! ## Every step -/

/-- R30, R34, 93 M4: every step keeps the invariant: an accepted configuration, at most 30 frames, the scratch pad in
canonical form and within its size (the representation is the model's, log 27). -/
def Obligations.EveryStepKeepsInvariant : Prop :=
  ∀ s t : State, State.Inv s → step s = .next t → State.Inv t

/-- R6, R52, R67: no step changes the program or a generic. -/
def Obligations.ProgramAndGenericsAreConstant : Prop :=
  ∀ s t : State, step s = .next t → t.program = s.program ∧ t.generics = s.generics

/-- 93 section 1: in an accepted configuration a step completes unless the environment lets an instruction run and one of
U1 to U4 arises (the spec's decisions D1, D3, D9, D10; log 14 to log 17); that reset, sleep and interrupt come first is D16
(log 20). -/
def Obligations.StepStopsOnlyOnUndefined : Prop :=
  ∀ s : State, s.generics.legal = true →
    (∃ t, step s = .next t) ∨
    (s.Undisturbed ∧
      ((s.generics.programMemorySize ≤ s.pc.toNat ∧ step s = .fault .fetchOutsideProgramMemory) ∨
       (∃ w why, s.progRead s.pc = some w ∧ decode w = .reserved why ∧ step s = .fault (.reservedInstruction why)) ∨
       (∃ w i, s.progRead s.pc = some w ∧ decode w = .instr i ∧ s.stack = [] ∧
         (i.popsCall = true ∨ i.popsInt = true) ∧ step s = .fault .stackUnderflow) ∨
       (∃ w i a z c b rest, s.progRead s.pc = some w ∧ decode w = .instr i ∧ s.stack = .int a z c b :: rest ∧
         i.popsCall = true ∧ step s = .fault .frameKindMismatch) ∨
       (∃ w i a rest, s.progRead s.pc = some w ∧ decode w = .instr i ∧ s.stack = .call a :: rest ∧
         i.popsInt = true ∧ step s = .fault .frameKindMismatch)))

/-- R250: the sequence is left by a reset, sleep, an interrupt, a control transfer, and in no other way (a transfer that
overflows the stack among them). The wrap of `pc + 1` is D2 (log 13); the place of sleep is D14 and D16 (log 20). -/
def Obligations.SequenceLeftOnlyAsListed : Prop :=
  ∀ s t : State, step s = .next t →
    t.pc = s.pc + 1#12 ∨ s.levels.reset = true ∨ (s.levels.sleep = true ∧ t.pc = s.pc) ∨
    (s.ie = true ∧ s.levels.interrupt = true) ∨
    (∃ w i, s.progRead s.pc = some w ∧ decode w = .instr i ∧ i.isTransfer = true)

/-- R299: a run that has ended stays ended as long as there is no reset: the JUMP to itself changes nothing but the time
(the convention is the spec's decision D21, log 29; the order of the checks D16, log 20). -/
def Obligations.EndedRunStays : Prop :=
  ∀ s : State, s.ended = true → s.Undisturbed →
    ∃ t, step s = .next t ∧ t.ended = true ∧ t.pc = s.pc ∧ SameRegisters s t ∧ SameFlags s t ∧ SameControl s t ∧
      t.stack = s.stack ∧ SameScratchPad s t ∧ NoPortEvent s t

/-! ## The assembler (30_encoding.md section 6) -/

/-- R87, R88: an instruction's own mnemonic and operands assemble to it. That it is so whatever names a program defines is the
model's choice: a register keeps its default name after NAMEREG, and what reads as a constant is one (log 30). -/
def Obligations.WrittenInstructionAssembles : Prop :=
  ∀ (sym : Asm.Symbols) (i : Instr), Asm.assemble sym (Asm.written i).1 (Asm.written i).2 = some i

/-- R91: OUTPUTK and LOAD&RETURN on a string expand to one instruction per character, in order. That a register keeps its
default name after NAMEREG is the model's choice (log 30). -/
def Obligations.StringExpandsPerCharacter : Prop :=
  ∀ (sym : Asm.Symbols) (n : String) (codes : List Byte) (p : PortK) (x : RegNum), sym.strings.lookup n = some codes →
    Asm.assembleLine sym .outputk [.string n, Asm.plainValue 1 p.toNat] = some (codes.map fun b => .outputK b p) ∧
    Asm.assembleLine sym .loadReturn [Asm.plainReg x, .string n] = some (codes.map fun b => .loadReturn x b)
end

