-- ==== Sys2Proof/Laws/Encoding.lean ====
section
/-! SUPPORT. The words of the seven formats (30_encoding.md R72): each bit, each field, the word its fields rebuild, and the
bits a row's mask keeps. -/

namespace Sys2Proof.Laws

/-! ## Each bit of a word -/

theorem wordRR_bit (op : BitVec 6) (x y : RegNum) (i : Nat) :
    (wordRR op x y).getLsbD i =
      if i < 4 then false else if i < 8 then y.getLsbD (i - 4)
      else if i < 12 then x.getLsbD (i - 8) else op.getLsbD (i - 12) := by
  have h₁ := BitVec.getLsbD_append (x := op ++ x ++ y) (y := 0x0#4) (i := i)
  have h₂ := BitVec.getLsbD_append (x := op ++ x) (y := y) (i := i - 4)
  have h₃ := BitVec.getLsbD_append (x := op) (y := x) (i := i - 4 - 4)
  refine h₁.trans ?_
  rw [h₂, h₃]
  split_ifs <;> first | omega | simp [Nat.sub_sub]

theorem wordRK_bit (op : BitVec 6) (x : RegNum) (kk : Byte) (i : Nat) :
    (wordRK op x kk).getLsbD i =
      if i < 8 then kk.getLsbD i else if i < 12 then x.getLsbD (i - 8) else op.getLsbD (i - 12) := by
  have h₁ := BitVec.getLsbD_append (x := op ++ x) (y := kk) (i := i)
  have h₂ := BitVec.getLsbD_append (x := op) (y := x) (i := i - 8)
  refine h₁.trans ?_
  rw [h₂]
  split_ifs <;> first | omega | simp [Nat.sub_sub]

theorem wordF_bit (op : BitVec 6) (low : BitVec 12) (i : Nat) :
    (wordF op low).getLsbD i = if i < 12 then low.getLsbD i else op.getLsbD (i - 12) :=
  (BitVec.getLsbD_append (x := op) (y := low) (i := i)).trans (by split_ifs <;> rfl)

theorem wordKP_bit (kk : Byte) (p : PortK) (i : Nat) :
    (wordKP kk p).getLsbD i =
      if i < 4 then p.getLsbD i else if i < 12 then kk.getLsbD (i - 4) else (0x2B#6).getLsbD (i - 12) := by
  have h₁ := BitVec.getLsbD_append (x := 0x2B#6 ++ kk) (y := p) (i := i)
  have h₂ := BitVec.getLsbD_append (x := 0x2B#6) (y := kk) (i := i - 4)
  refine h₁.trans ?_
  rw [h₂]
  split_ifs <;> first | omega | simp [Nat.sub_sub]

theorem wordSH_eq (x : RegNum) (sh : Byte) : wordSH x sh = wordRK 0x14#6 x sh := rfl

theorem wordA_eq (op : BitVec 6) (aaa : ProgAddr) : wordA op aaa = wordF op aaa := rfl

/-! ## Each field of a word -/

@[simp] theorem wordRR_op (op : BitVec 6) (x y : RegNum) : fieldOp (wordRR op x y) = op := by
  refine BitVec.eq_of_getLsbD_eq fun i hi => ?_
  rw [fieldOp, BitVec.getLsbD_extractLsb', wordRR_bit]
  interval_cases i <;> simp

@[simp] theorem wordRR_x (op : BitVec 6) (x y : RegNum) : fieldX (wordRR op x y) = x := by
  refine BitVec.eq_of_getLsbD_eq fun i hi => ?_
  rw [fieldX, BitVec.getLsbD_extractLsb', wordRR_bit]
  interval_cases i <;> simp

@[simp] theorem wordRR_y (op : BitVec 6) (x y : RegNum) : fieldY (wordRR op x y) = y := by
  refine BitVec.eq_of_getLsbD_eq fun i hi => ?_
  rw [fieldY, BitVec.getLsbD_extractLsb', wordRR_bit]
  interval_cases i <;> simp

@[simp] theorem wordRR_low (op : BitVec 6) (x y : RegNum) : fieldPK (wordRR op x y) = 0x0#4 := by
  refine BitVec.eq_of_getLsbD_eq fun i hi => ?_
  rw [fieldPK, BitVec.getLsbD_extractLsb', wordRR_bit]
  interval_cases i <;> simp

@[simp] theorem wordRK_op (op : BitVec 6) (x : RegNum) (kk : Byte) : fieldOp (wordRK op x kk) = op := by
  refine BitVec.eq_of_getLsbD_eq fun i hi => ?_
  rw [fieldOp, BitVec.getLsbD_extractLsb', wordRK_bit]
  interval_cases i <;> simp

@[simp] theorem wordRK_x (op : BitVec 6) (x : RegNum) (kk : Byte) : fieldX (wordRK op x kk) = x := by
  refine BitVec.eq_of_getLsbD_eq fun i hi => ?_
  rw [fieldX, BitVec.getLsbD_extractLsb', wordRK_bit]
  interval_cases i <;> simp

@[simp] theorem wordRK_kk (op : BitVec 6) (x : RegNum) (kk : Byte) : fieldKK (wordRK op x kk) = kk := by
  refine BitVec.eq_of_getLsbD_eq fun i hi => ?_
  rw [fieldKK, BitVec.getLsbD_extractLsb', wordRK_bit]
  interval_cases i <;> simp

@[simp] theorem wordF_op (op : BitVec 6) (low : BitVec 12) : fieldOp (wordF op low) = op := by
  refine BitVec.eq_of_getLsbD_eq fun i hi => ?_
  rw [fieldOp, BitVec.getLsbD_extractLsb', wordF_bit]
  interval_cases i <;> simp

@[simp] theorem wordF_aaa (op : BitVec 6) (low : BitVec 12) : fieldAAA (wordF op low) = low := by
  refine BitVec.eq_of_getLsbD_eq fun i hi => ?_
  rw [fieldAAA, BitVec.getLsbD_extractLsb', wordF_bit]
  interval_cases i <;> simp

@[simp] theorem wordKP_op (kk : Byte) (p : PortK) : fieldOp (wordKP kk p) = 0x2B#6 := by
  refine BitVec.eq_of_getLsbD_eq fun i hi => ?_
  rw [fieldOp, BitVec.getLsbD_extractLsb', wordKP_bit]
  interval_cases i <;> simp

@[simp] theorem wordKP_kk (kk : Byte) (p : PortK) : fieldKKK (wordKP kk p) = kk := by
  refine BitVec.eq_of_getLsbD_eq fun i hi => ?_
  rw [fieldKKK, BitVec.getLsbD_extractLsb', wordKP_bit]
  interval_cases i <;> simp

@[simp] theorem wordKP_p (kk : Byte) (p : PortK) : fieldPK (wordKP kk p) = p := by
  refine BitVec.eq_of_getLsbD_eq fun i hi => ?_
  rw [fieldPK, BitVec.getLsbD_extractLsb', wordKP_bit]
  interval_cases i <;> simp

/-! ## A word is what its fields rebuild -/

theorem wordRR_fields (w : IWord) (h : fieldPK w = 0x0#4) : wordRR (fieldOp w) (fieldX w) (fieldY w) = w := by
  refine BitVec.eq_of_getLsbD_eq fun i hi => ?_
  have low := congrArg (fun v => BitVec.getLsbD v i) h
  simp only [fieldPK, BitVec.getLsbD_extractLsb'] at low
  rw [wordRR_bit, fieldOp, fieldX, fieldY]
  interval_cases i <;> simp_all

theorem wordRK_fields (w : IWord) : wordRK (fieldOp w) (fieldX w) (fieldKK w) = w := by
  refine BitVec.eq_of_getLsbD_eq fun i hi => ?_
  rw [wordRK_bit, fieldOp, fieldX, fieldKK]
  interval_cases i <;> simp

theorem wordF_fields (w : IWord) : wordF (fieldOp w) (fieldAAA w) = w := by
  refine BitVec.eq_of_getLsbD_eq fun i hi => ?_
  rw [wordF_bit, fieldOp, fieldAAA]
  interval_cases i <;> simp

theorem wordKP_fields (w : IWord) (h : fieldOp w = 0x2B#6) : wordKP (fieldKKK w) (fieldPK w) = w := by
  refine BitVec.eq_of_getLsbD_eq fun i hi => ?_
  rw [wordKP_bit, ← h, fieldOp, fieldKKK, fieldPK]
  interval_cases i <;> simp

/-! ## The bits a row's mask keeps -/

theorem rowRR_matches (op : BitVec 6) (x y : RegNum) :
    (wordRR op x y &&& 0x3F00F#18) = wordRR op 0x0#4 0x0#4 := by
  refine BitVec.eq_of_getLsbD_eq fun i hi => ?_
  rw [BitVec.getLsbD_and, wordRR_bit, wordRR_bit]
  interval_cases i <;> simp

theorem rowRK_matches (op : BitVec 6) (x : RegNum) (kk : Byte) :
    (wordRK op x kk &&& 0x3F000#18) = wordRK op 0x0#4 0x00#8 := by
  refine BitVec.eq_of_getLsbD_eq fun i hi => ?_
  rw [BitVec.getLsbD_and, wordRK_bit, wordRK_bit]
  interval_cases i <;> simp

theorem rowA_matches (op : BitVec 6) (aaa : ProgAddr) :
    (wordA op aaa &&& 0x3F000#18) = wordA op 0x000#12 := by
  refine BitVec.eq_of_getLsbD_eq fun i hi => ?_
  rw [BitVec.getLsbD_and, wordA_eq, wordA_eq, wordF_bit, wordF_bit]
  interval_cases i <;> simp

theorem rowSH_matches (x : RegNum) (sh : Byte) :
    (wordSH x sh &&& 0x3F0FF#18) = wordSH 0x0#4 sh := by
  refine BitVec.eq_of_getLsbD_eq fun i hi => ?_
  rw [BitVec.getLsbD_and, wordSH_eq, wordSH_eq, wordRK_bit, wordRK_bit]
  interval_cases i <;> simp

theorem rowKP_matches (kk : Byte) (p : PortK) :
    (wordKP kk p &&& 0x3F000#18) = wordKP 0x00#8 0x0#4 := by
  refine BitVec.eq_of_getLsbD_eq fun i hi => ?_
  rw [BitVec.getLsbD_and, wordKP_bit, wordKP_bit]
  interval_cases i <;> simp

end Sys2Proof.Laws
end

