-- ==== Sys2Proof/Laws/Memory.lean ====
section
/-! SUPPORT. Memory: a read after a write, the canonical form that every memory operation keeps, and the register banks. -/

namespace Sys2Proof.Machine

variable {w : Nat}

/-! ## The canonical form -/

theorem Memory.wfFrom_cons (lo k : Nat) (v : BitVec w) (m : Memory w) :
    Memory.wfFrom lo ((k, v) :: m) = true ↔ lo ≤ k ∧ v ≠ Memory.unlisted ∧ Memory.wfFrom (k + 1) m = true := by
  simp [Memory.wfFrom]

theorem Memory.wfFrom_mono {lo lo' : Nat} (h : lo' ≤ lo) (m : Memory w) (hm : Memory.wfFrom lo m = true) :
    Memory.wfFrom lo' m = true := by
  cases m with
  | nil => rfl
  | cons cell m =>
    rw [Memory.wfFrom_cons] at hm ⊢
    exact ⟨h.trans hm.1, hm.2⟩

theorem Memory.read_below {lo : Nat} (m : Memory w) (hm : Memory.wfFrom lo m = true) (a : Nat) (ha : a < lo) :
    Memory.read m a = Memory.unlisted := by
  induction m generalizing lo with
  | nil => rfl
  | cons cell m ih =>
    rw [Memory.wfFrom_cons] at hm
    rw [Memory.read, if_neg (by omega)]
    exact ih hm.2.2 (by omega)

theorem Memory.write_wfFrom {lo : Nat} (m : Memory w) (hm : Memory.wfFrom lo m = true) (a : Nat) (ha : lo ≤ a)
    (v : BitVec w) : Memory.wfFrom lo (Memory.write m a v) = true := by
  induction m generalizing lo with
  | nil =>
    rw [Memory.write]
    split
    · rfl
    · exact (Memory.wfFrom_cons ..).2 ⟨ha, ‹_›, rfl⟩
  | cons cell m ih =>
    obtain ⟨k, u⟩ := cell
    have hm' := (Memory.wfFrom_cons ..).1 hm
    rw [Memory.write]
    split
    · split
      · exact hm
      · exact (Memory.wfFrom_cons ..).2 ⟨ha, ‹_›, (Memory.wfFrom_cons ..).2 ⟨by omega, hm'.2⟩⟩
    · split
      · split
        · exact Memory.wfFrom_mono (by omega) m hm'.2.2
        · exact (Memory.wfFrom_cons ..).2 ⟨ha, ‹_›, by subst_vars; exact hm'.2.2⟩
      · exact (Memory.wfFrom_cons ..).2 ⟨hm'.1, hm'.2.1, ih hm'.2.2 (by omega)⟩

/-- A write keeps the canonical form. -/
theorem Memory.write_wf (m : Memory w) (hm : Memory.wf m = true) (a : Nat) (v : BitVec w) :
    Memory.wf (Memory.write m a v) = true :=
  Memory.write_wfFrom m hm a (Nat.zero_le a) v

theorem Memory.tabulateFrom_wfFrom (f : Nat → BitVec w) (n lo : Nat) :
    Memory.wfFrom lo (Memory.tabulateFrom f n lo) = true := by
  induction n generalizing lo with
  | zero => rfl
  | succ n ih =>
    rw [Memory.tabulateFrom]
    split
    · exact Memory.wfFrom_mono (Nat.le_succ lo) _ (ih (lo + 1))
    · exact (Memory.wfFrom_cons ..).2 ⟨le_rfl, ‹_›, ih (lo + 1)⟩

/-- A tabulated memory is in canonical form. -/
theorem Memory.tabulate_wf (n : Nat) (f : Nat → BitVec w) : Memory.wf (Memory.tabulate n f) = true :=
  Memory.tabulateFrom_wfFrom f n 0

/-! ## Addresses stay below the size -/

theorem Memory.within_cons (n k : Nat) (v : BitVec w) (m : Memory w) :
    Memory.within n ((k, v) :: m) = true ↔ k < n ∧ Memory.within n m = true := by
  simp only [Memory.within, List.all_cons, Bool.and_eq_true, decide_eq_true_eq]

theorem Memory.write_within (n : Nat) (m : Memory w) (hm : Memory.within n m = true) (a : Nat) (ha : a < n)
    (v : BitVec w) : Memory.within n (Memory.write m a v) = true := by
  induction m with
  | nil =>
    rw [Memory.write]
    split
    · rfl
    · exact (Memory.within_cons ..).2 ⟨ha, rfl⟩
  | cons cell m ih =>
    obtain ⟨k, u⟩ := cell
    have hm' := (Memory.within_cons ..).1 hm
    rw [Memory.write]
    split_ifs
    · exact hm
    · exact (Memory.within_cons ..).2 ⟨ha, hm⟩
    · exact hm'.2
    · exact (Memory.within_cons ..).2 ⟨ha, hm'.2⟩
    · exact (Memory.within_cons ..).2 ⟨hm'.1, ih hm'.2⟩

theorem Memory.tabulateFrom_within (f : Nat → BitVec w) (n lo b : Nat) (h : lo + n ≤ b) :
    Memory.within b (Memory.tabulateFrom f n lo) = true := by
  induction n generalizing lo with
  | zero => rfl
  | succ n ih =>
    have ih' := ih (lo + 1) (by omega)
    rw [Memory.tabulateFrom]
    split
    · exact ih'
    · exact (Memory.within_cons ..).2 ⟨by omega, ih'⟩

theorem Memory.tabulate_within (n : Nat) (f : Nat → BitVec w) : Memory.within n (Memory.tabulate n f) = true :=
  Memory.tabulateFrom_within f n 0 n (by omega)

/-! ## Reads after writes -/

/-- A write leaves every other cell alone. -/
theorem Memory.read_write_other (m : Memory w) (a : Nat) (v : BitVec w) (a' : Nat) (h : a' ≠ a) :
    Memory.read (Memory.write m a v) a' = Memory.read m a' := by
  induction m with
  | nil => rw [Memory.write]; split <;> simp [Memory.read, h]
  | cons cell m ih =>
    rw [Memory.write]
    split_ifs <;> simp_all [Memory.read]

theorem Memory.read_write_same_from {lo : Nat} (m : Memory w) (hm : Memory.wfFrom lo m = true) (a : Nat)
    (v : BitVec w) : Memory.read (Memory.write m a v) a = v := by
  induction m generalizing lo with
  | nil => rw [Memory.write]; split <;> simp_all [Memory.read]
  | cons cell m ih =>
    obtain ⟨k, u⟩ := cell
    have hm' := (Memory.wfFrom_cons ..).1 hm
    rw [Memory.write]
    split
    · split
      · rw [Memory.read, if_neg (by omega), Memory.read_below m hm'.2.2 a (by omega)]; simp_all
      · simp [Memory.read]
    · split
      · split
        · rw [Memory.read_below m hm'.2.2 a (by omega)]; simp_all
        · simp [Memory.read]
      · rw [Memory.read, if_neg ‹_›]; exact ih hm'.2.2

/-- A read after a write to the same cell gives the value written. -/
theorem Memory.read_write_same (m : Memory w) (hm : Memory.wf m = true) (a : Nat) (v : BitVec w) :
    Memory.read (Memory.write m a v) a = v :=
  Memory.read_write_same_from m hm a v

/-! ## Registers -/

theorem Registers.read_write (g : Registers) (b : Bank) (r : RegNum) (v : Byte) (b' : Bank) (r' : RegNum) :
    (g.write b r v).read b' r' = if b' = b ∧ r' = r then v else g.read b' r' := by
  have key : r.toNat = r'.toNat ↔ r' = r := by
    rw [← BitVec.toNat_inj]; exact eq_comm
  cases b <;> cases b' <;> simp [Registers.read, Registers.write, Vector.getElem_set, key]

end Sys2Proof.Machine
end

