-- ==== Sys2Proof/Laws/State.lean ====
section
/-! SUPPORT. The state record: for each update, what each field holds after it. No later proof unfolds an update. -/

namespace Sys2Proof.Machine

/-! ## setReg -/

@[simp] theorem State.setReg_regs (s : State) (b : Bank) (r : RegNum) (v : Byte) : (s.setReg b r v).regs = s.regs.write b r v := rfl
@[simp] theorem State.setReg_bank (s : State) (b : Bank) (r : RegNum) (v : Byte) : (s.setReg b r v).bank = s.bank := rfl
@[simp] theorem State.setReg_pc (s : State) (b : Bank) (r : RegNum) (v : Byte) : (s.setReg b r v).pc = s.pc := rfl
@[simp] theorem State.setReg_z (s : State) (b : Bank) (r : RegNum) (v : Byte) : (s.setReg b r v).z = s.z := rfl
@[simp] theorem State.setReg_c (s : State) (b : Bank) (r : RegNum) (v : Byte) : (s.setReg b r v).c = s.c := rfl
@[simp] theorem State.setReg_ie (s : State) (b : Bank) (r : RegNum) (v : Byte) : (s.setReg b r v).ie = s.ie := rfl
@[simp] theorem State.setReg_stack (s : State) (b : Bank) (r : RegNum) (v : Byte) : (s.setReg b r v).stack = s.stack := rfl
@[simp] theorem State.setReg_spm (s : State) (b : Bank) (r : RegNum) (v : Byte) : (s.setReg b r v).spm = s.spm := rfl
@[simp] theorem State.setReg_generics (s : State) (b : Bank) (r : RegNum) (v : Byte) : (s.setReg b r v).generics = s.generics := rfl
@[simp] theorem State.setReg_program (s : State) (b : Bank) (r : RegNum) (v : Byte) : (s.setReg b r v).program = s.program := rfl
@[simp] theorem State.setReg_pins (s : State) (b : Bank) (r : RegNum) (v : Byte) : (s.setReg b r v).pins = s.pins := rfl
@[simp] theorem State.setReg_inputs (s : State) (b : Bank) (r : RegNum) (v : Byte) : (s.setReg b r v).inputs = s.inputs := rfl
@[simp] theorem State.setReg_events (s : State) (b : Bank) (r : RegNum) (v : Byte) : (s.setReg b r v).events = s.events := rfl
@[simp] theorem State.setReg_boundary (s : State) (b : Bank) (r : RegNum) (v : Byte) : (s.setReg b r v).boundary = s.boundary := rfl
@[simp] theorem State.setReg_resets (s : State) (b : Bank) (r : RegNum) (v : Byte) : (s.setReg b r v).resets = s.resets := rfl
@[simp] theorem State.setReg_overflows (s : State) (b : Bank) (r : RegNum) (v : Byte) : (s.setReg b r v).overflows = s.overflows := rfl
@[simp] theorem State.setReg_cycles (s : State) (b : Bank) (r : RegNum) (v : Byte) : (s.setReg b r v).cycles = s.cycles := rfl
@[simp] theorem State.setReg_memRead (s : State) (b : Bank) (r : RegNum) (v : Byte) (a' : Byte) : (s.setReg b r v).memRead a' = s.memRead a' := rfl
@[simp] theorem State.setReg_scratchPadIndex (s : State) (b : Bank) (r : RegNum) (v : Byte) (a' : Byte) : (s.setReg b r v).scratchPadIndex a' = s.scratchPadIndex a' := rfl
@[simp] theorem State.setReg_progRead (s : State) (b : Bank) (r : RegNum) (v : Byte) (a' : ProgAddr) : (s.setReg b r v).progRead a' = s.progRead a' := rfl

/-! ## setFlags -/

@[simp] theorem State.setFlags_regs (s : State) (z c : Bool) : (s.setFlags z c).regs = s.regs := rfl
@[simp] theorem State.setFlags_bank (s : State) (z c : Bool) : (s.setFlags z c).bank = s.bank := rfl
@[simp] theorem State.setFlags_pc (s : State) (z c : Bool) : (s.setFlags z c).pc = s.pc := rfl
@[simp] theorem State.setFlags_z (s : State) (z c : Bool) : (s.setFlags z c).z = z := rfl
@[simp] theorem State.setFlags_c (s : State) (z c : Bool) : (s.setFlags z c).c = c := rfl
@[simp] theorem State.setFlags_ie (s : State) (z c : Bool) : (s.setFlags z c).ie = s.ie := rfl
@[simp] theorem State.setFlags_stack (s : State) (z c : Bool) : (s.setFlags z c).stack = s.stack := rfl
@[simp] theorem State.setFlags_spm (s : State) (z c : Bool) : (s.setFlags z c).spm = s.spm := rfl
@[simp] theorem State.setFlags_generics (s : State) (z c : Bool) : (s.setFlags z c).generics = s.generics := rfl
@[simp] theorem State.setFlags_program (s : State) (z c : Bool) : (s.setFlags z c).program = s.program := rfl
@[simp] theorem State.setFlags_pins (s : State) (z c : Bool) : (s.setFlags z c).pins = s.pins := rfl
@[simp] theorem State.setFlags_inputs (s : State) (z c : Bool) : (s.setFlags z c).inputs = s.inputs := rfl
@[simp] theorem State.setFlags_events (s : State) (z c : Bool) : (s.setFlags z c).events = s.events := rfl
@[simp] theorem State.setFlags_boundary (s : State) (z c : Bool) : (s.setFlags z c).boundary = s.boundary := rfl
@[simp] theorem State.setFlags_resets (s : State) (z c : Bool) : (s.setFlags z c).resets = s.resets := rfl
@[simp] theorem State.setFlags_overflows (s : State) (z c : Bool) : (s.setFlags z c).overflows = s.overflows := rfl
@[simp] theorem State.setFlags_cycles (s : State) (z c : Bool) : (s.setFlags z c).cycles = s.cycles := rfl
@[simp] theorem State.setFlags_reg (s : State) (z c : Bool) (b' : Bank) (r' : RegNum) : (s.setFlags z c).reg b' r' = s.reg b' r' := rfl
@[simp] theorem State.setFlags_memRead (s : State) (z c : Bool) (a' : Byte) : (s.setFlags z c).memRead a' = s.memRead a' := rfl
@[simp] theorem State.setFlags_scratchPadIndex (s : State) (z c : Bool) (a' : Byte) : (s.setFlags z c).scratchPadIndex a' = s.scratchPadIndex a' := rfl
@[simp] theorem State.setFlags_progRead (s : State) (z c : Bool) (a' : ProgAddr) : (s.setFlags z c).progRead a' = s.progRead a' := rfl

/-! ## setIE -/

@[simp] theorem State.setIE_regs (s : State) (ie : Bool) : (s.setIE ie).regs = s.regs := rfl
@[simp] theorem State.setIE_bank (s : State) (ie : Bool) : (s.setIE ie).bank = s.bank := rfl
@[simp] theorem State.setIE_pc (s : State) (ie : Bool) : (s.setIE ie).pc = s.pc := rfl
@[simp] theorem State.setIE_z (s : State) (ie : Bool) : (s.setIE ie).z = s.z := rfl
@[simp] theorem State.setIE_c (s : State) (ie : Bool) : (s.setIE ie).c = s.c := rfl
@[simp] theorem State.setIE_ie (s : State) (ie : Bool) : (s.setIE ie).ie = ie := rfl
@[simp] theorem State.setIE_stack (s : State) (ie : Bool) : (s.setIE ie).stack = s.stack := rfl
@[simp] theorem State.setIE_spm (s : State) (ie : Bool) : (s.setIE ie).spm = s.spm := rfl
@[simp] theorem State.setIE_generics (s : State) (ie : Bool) : (s.setIE ie).generics = s.generics := rfl
@[simp] theorem State.setIE_program (s : State) (ie : Bool) : (s.setIE ie).program = s.program := rfl
@[simp] theorem State.setIE_pins (s : State) (ie : Bool) : (s.setIE ie).pins = s.pins := rfl
@[simp] theorem State.setIE_inputs (s : State) (ie : Bool) : (s.setIE ie).inputs = s.inputs := rfl
@[simp] theorem State.setIE_events (s : State) (ie : Bool) : (s.setIE ie).events = s.events := rfl
@[simp] theorem State.setIE_boundary (s : State) (ie : Bool) : (s.setIE ie).boundary = s.boundary := rfl
@[simp] theorem State.setIE_resets (s : State) (ie : Bool) : (s.setIE ie).resets = s.resets := rfl
@[simp] theorem State.setIE_overflows (s : State) (ie : Bool) : (s.setIE ie).overflows = s.overflows := rfl
@[simp] theorem State.setIE_cycles (s : State) (ie : Bool) : (s.setIE ie).cycles = s.cycles := rfl
@[simp] theorem State.setIE_reg (s : State) (ie : Bool) (b' : Bank) (r' : RegNum) : (s.setIE ie).reg b' r' = s.reg b' r' := rfl
@[simp] theorem State.setIE_memRead (s : State) (ie : Bool) (a' : Byte) : (s.setIE ie).memRead a' = s.memRead a' := rfl
@[simp] theorem State.setIE_scratchPadIndex (s : State) (ie : Bool) (a' : Byte) : (s.setIE ie).scratchPadIndex a' = s.scratchPadIndex a' := rfl
@[simp] theorem State.setIE_progRead (s : State) (ie : Bool) (a' : ProgAddr) : (s.setIE ie).progRead a' = s.progRead a' := rfl

/-! ## setBank -/

@[simp] theorem State.setBank_regs (s : State) (b : Bank) : (s.setBank b).regs = s.regs := rfl
@[simp] theorem State.setBank_bank (s : State) (b : Bank) : (s.setBank b).bank = b := rfl
@[simp] theorem State.setBank_pc (s : State) (b : Bank) : (s.setBank b).pc = s.pc := rfl
@[simp] theorem State.setBank_z (s : State) (b : Bank) : (s.setBank b).z = s.z := rfl
@[simp] theorem State.setBank_c (s : State) (b : Bank) : (s.setBank b).c = s.c := rfl
@[simp] theorem State.setBank_ie (s : State) (b : Bank) : (s.setBank b).ie = s.ie := rfl
@[simp] theorem State.setBank_stack (s : State) (b : Bank) : (s.setBank b).stack = s.stack := rfl
@[simp] theorem State.setBank_spm (s : State) (b : Bank) : (s.setBank b).spm = s.spm := rfl
@[simp] theorem State.setBank_generics (s : State) (b : Bank) : (s.setBank b).generics = s.generics := rfl
@[simp] theorem State.setBank_program (s : State) (b : Bank) : (s.setBank b).program = s.program := rfl
@[simp] theorem State.setBank_pins (s : State) (b : Bank) : (s.setBank b).pins = s.pins := rfl
@[simp] theorem State.setBank_inputs (s : State) (b : Bank) : (s.setBank b).inputs = s.inputs := rfl
@[simp] theorem State.setBank_events (s : State) (b : Bank) : (s.setBank b).events = s.events := rfl
@[simp] theorem State.setBank_boundary (s : State) (b : Bank) : (s.setBank b).boundary = s.boundary := rfl
@[simp] theorem State.setBank_resets (s : State) (b : Bank) : (s.setBank b).resets = s.resets := rfl
@[simp] theorem State.setBank_overflows (s : State) (b : Bank) : (s.setBank b).overflows = s.overflows := rfl
@[simp] theorem State.setBank_cycles (s : State) (b : Bank) : (s.setBank b).cycles = s.cycles := rfl
@[simp] theorem State.setBank_reg (s : State) (b : Bank) (b' : Bank) (r' : RegNum) : (s.setBank b).reg b' r' = s.reg b' r' := rfl
@[simp] theorem State.setBank_memRead (s : State) (b : Bank) (a' : Byte) : (s.setBank b).memRead a' = s.memRead a' := rfl
@[simp] theorem State.setBank_scratchPadIndex (s : State) (b : Bank) (a' : Byte) : (s.setBank b).scratchPadIndex a' = s.scratchPadIndex a' := rfl
@[simp] theorem State.setBank_progRead (s : State) (b : Bank) (a' : ProgAddr) : (s.setBank b).progRead a' = s.progRead a' := rfl

/-! ## goto -/

@[simp] theorem State.goto_regs (s : State) (t : ProgAddr) : (s.goto t).regs = s.regs := rfl
@[simp] theorem State.goto_bank (s : State) (t : ProgAddr) : (s.goto t).bank = s.bank := rfl
@[simp] theorem State.goto_pc (s : State) (t : ProgAddr) : (s.goto t).pc = t := rfl
@[simp] theorem State.goto_z (s : State) (t : ProgAddr) : (s.goto t).z = s.z := rfl
@[simp] theorem State.goto_c (s : State) (t : ProgAddr) : (s.goto t).c = s.c := rfl
@[simp] theorem State.goto_ie (s : State) (t : ProgAddr) : (s.goto t).ie = s.ie := rfl
@[simp] theorem State.goto_stack (s : State) (t : ProgAddr) : (s.goto t).stack = s.stack := rfl
@[simp] theorem State.goto_spm (s : State) (t : ProgAddr) : (s.goto t).spm = s.spm := rfl
@[simp] theorem State.goto_generics (s : State) (t : ProgAddr) : (s.goto t).generics = s.generics := rfl
@[simp] theorem State.goto_program (s : State) (t : ProgAddr) : (s.goto t).program = s.program := rfl
@[simp] theorem State.goto_pins (s : State) (t : ProgAddr) : (s.goto t).pins = s.pins := rfl
@[simp] theorem State.goto_inputs (s : State) (t : ProgAddr) : (s.goto t).inputs = s.inputs := rfl
@[simp] theorem State.goto_events (s : State) (t : ProgAddr) : (s.goto t).events = s.events := rfl
@[simp] theorem State.goto_boundary (s : State) (t : ProgAddr) : (s.goto t).boundary = s.boundary := rfl
@[simp] theorem State.goto_resets (s : State) (t : ProgAddr) : (s.goto t).resets = s.resets := rfl
@[simp] theorem State.goto_overflows (s : State) (t : ProgAddr) : (s.goto t).overflows = s.overflows := rfl
@[simp] theorem State.goto_cycles (s : State) (t : ProgAddr) : (s.goto t).cycles = s.cycles + 2 := rfl
@[simp] theorem State.goto_reg (s : State) (t : ProgAddr) (b' : Bank) (r' : RegNum) : (s.goto t).reg b' r' = s.reg b' r' := rfl
@[simp] theorem State.goto_memRead (s : State) (t : ProgAddr) (a' : Byte) : (s.goto t).memRead a' = s.memRead a' := rfl
@[simp] theorem State.goto_scratchPadIndex (s : State) (t : ProgAddr) (a' : Byte) : (s.goto t).scratchPadIndex a' = s.scratchPadIndex a' := rfl
@[simp] theorem State.goto_progRead (s : State) (t : ProgAddr) (a' : ProgAddr) : (s.goto t).progRead a' = s.progRead a' := rfl

/-! ## memWrite -/

@[simp] theorem State.memWrite_regs (s : State) (a v : Byte) : (s.memWrite a v).regs = s.regs := rfl
@[simp] theorem State.memWrite_bank (s : State) (a v : Byte) : (s.memWrite a v).bank = s.bank := rfl
@[simp] theorem State.memWrite_pc (s : State) (a v : Byte) : (s.memWrite a v).pc = s.pc := rfl
@[simp] theorem State.memWrite_z (s : State) (a v : Byte) : (s.memWrite a v).z = s.z := rfl
@[simp] theorem State.memWrite_c (s : State) (a v : Byte) : (s.memWrite a v).c = s.c := rfl
@[simp] theorem State.memWrite_ie (s : State) (a v : Byte) : (s.memWrite a v).ie = s.ie := rfl
@[simp] theorem State.memWrite_stack (s : State) (a v : Byte) : (s.memWrite a v).stack = s.stack := rfl
@[simp] theorem State.memWrite_spm (s : State) (a v : Byte) : (s.memWrite a v).spm = Memory.write s.spm (s.scratchPadIndex a) v := rfl
@[simp] theorem State.memWrite_generics (s : State) (a v : Byte) : (s.memWrite a v).generics = s.generics := rfl
@[simp] theorem State.memWrite_program (s : State) (a v : Byte) : (s.memWrite a v).program = s.program := rfl
@[simp] theorem State.memWrite_pins (s : State) (a v : Byte) : (s.memWrite a v).pins = s.pins := rfl
@[simp] theorem State.memWrite_inputs (s : State) (a v : Byte) : (s.memWrite a v).inputs = s.inputs := rfl
@[simp] theorem State.memWrite_events (s : State) (a v : Byte) : (s.memWrite a v).events = s.events := rfl
@[simp] theorem State.memWrite_boundary (s : State) (a v : Byte) : (s.memWrite a v).boundary = s.boundary := rfl
@[simp] theorem State.memWrite_resets (s : State) (a v : Byte) : (s.memWrite a v).resets = s.resets := rfl
@[simp] theorem State.memWrite_overflows (s : State) (a v : Byte) : (s.memWrite a v).overflows = s.overflows := rfl
@[simp] theorem State.memWrite_cycles (s : State) (a v : Byte) : (s.memWrite a v).cycles = s.cycles := rfl
@[simp] theorem State.memWrite_reg (s : State) (a v : Byte) (b' : Bank) (r' : RegNum) : (s.memWrite a v).reg b' r' = s.reg b' r' := rfl
@[simp] theorem State.memWrite_scratchPadIndex (s : State) (a v : Byte) (a' : Byte) : (s.memWrite a v).scratchPadIndex a' = s.scratchPadIndex a' := rfl
@[simp] theorem State.memWrite_progRead (s : State) (a v : Byte) (a' : ProgAddr) : (s.memWrite a v).progRead a' = s.progRead a' := rfl

/-! ## emit -/

@[simp] theorem State.emit_regs (s : State) (e : Event) : (s.emit e).regs = s.regs := rfl
@[simp] theorem State.emit_bank (s : State) (e : Event) : (s.emit e).bank = s.bank := rfl
@[simp] theorem State.emit_pc (s : State) (e : Event) : (s.emit e).pc = s.pc := rfl
@[simp] theorem State.emit_z (s : State) (e : Event) : (s.emit e).z = s.z := rfl
@[simp] theorem State.emit_c (s : State) (e : Event) : (s.emit e).c = s.c := rfl
@[simp] theorem State.emit_ie (s : State) (e : Event) : (s.emit e).ie = s.ie := rfl
@[simp] theorem State.emit_stack (s : State) (e : Event) : (s.emit e).stack = s.stack := rfl
@[simp] theorem State.emit_spm (s : State) (e : Event) : (s.emit e).spm = s.spm := rfl
@[simp] theorem State.emit_generics (s : State) (e : Event) : (s.emit e).generics = s.generics := rfl
@[simp] theorem State.emit_program (s : State) (e : Event) : (s.emit e).program = s.program := rfl
@[simp] theorem State.emit_pins (s : State) (e : Event) : (s.emit e).pins = s.pins := rfl
@[simp] theorem State.emit_inputs (s : State) (e : Event) : (s.emit e).inputs = s.inputs := rfl
@[simp] theorem State.emit_events (s : State) (e : Event) : (s.emit e).events = s.events ++ [e] := rfl
@[simp] theorem State.emit_boundary (s : State) (e : Event) : (s.emit e).boundary = s.boundary := rfl
@[simp] theorem State.emit_resets (s : State) (e : Event) : (s.emit e).resets = s.resets := rfl
@[simp] theorem State.emit_overflows (s : State) (e : Event) : (s.emit e).overflows = s.overflows := rfl
@[simp] theorem State.emit_cycles (s : State) (e : Event) : (s.emit e).cycles = s.cycles := rfl
@[simp] theorem State.emit_reg (s : State) (e : Event) (b' : Bank) (r' : RegNum) : (s.emit e).reg b' r' = s.reg b' r' := rfl
@[simp] theorem State.emit_memRead (s : State) (e : Event) (a' : Byte) : (s.emit e).memRead a' = s.memRead a' := rfl
@[simp] theorem State.emit_scratchPadIndex (s : State) (e : Event) (a' : Byte) : (s.emit e).scratchPadIndex a' = s.scratchPadIndex a' := rfl
@[simp] theorem State.emit_progRead (s : State) (e : Event) (a' : ProgAddr) : (s.emit e).progRead a' = s.progRead a' := rfl

/-! ## portRead -/

@[simp] theorem State.portRead_regs (s : State) (p : Byte) : (s.portRead p).regs = s.regs := rfl
@[simp] theorem State.portRead_bank (s : State) (p : Byte) : (s.portRead p).bank = s.bank := rfl
@[simp] theorem State.portRead_pc (s : State) (p : Byte) : (s.portRead p).pc = s.pc := rfl
@[simp] theorem State.portRead_z (s : State) (p : Byte) : (s.portRead p).z = s.z := rfl
@[simp] theorem State.portRead_c (s : State) (p : Byte) : (s.portRead p).c = s.c := rfl
@[simp] theorem State.portRead_ie (s : State) (p : Byte) : (s.portRead p).ie = s.ie := rfl
@[simp] theorem State.portRead_stack (s : State) (p : Byte) : (s.portRead p).stack = s.stack := rfl
@[simp] theorem State.portRead_spm (s : State) (p : Byte) : (s.portRead p).spm = s.spm := rfl
@[simp] theorem State.portRead_generics (s : State) (p : Byte) : (s.portRead p).generics = s.generics := rfl
@[simp] theorem State.portRead_program (s : State) (p : Byte) : (s.portRead p).program = s.program := rfl
@[simp] theorem State.portRead_pins (s : State) (p : Byte) : (s.portRead p).pins = s.pins := rfl
@[simp] theorem State.portRead_inputs (s : State) (p : Byte) : (s.portRead p).inputs = s.inputs.tail := rfl
@[simp] theorem State.portRead_events (s : State) (p : Byte) : (s.portRead p).events = s.events ++ [.read p] := rfl
@[simp] theorem State.portRead_boundary (s : State) (p : Byte) : (s.portRead p).boundary = s.boundary := rfl
@[simp] theorem State.portRead_resets (s : State) (p : Byte) : (s.portRead p).resets = s.resets := rfl
@[simp] theorem State.portRead_overflows (s : State) (p : Byte) : (s.portRead p).overflows = s.overflows := rfl
@[simp] theorem State.portRead_cycles (s : State) (p : Byte) : (s.portRead p).cycles = s.cycles := rfl
@[simp] theorem State.portRead_reg (s : State) (p : Byte) (b' : Bank) (r' : RegNum) : (s.portRead p).reg b' r' = s.reg b' r' := rfl
@[simp] theorem State.portRead_memRead (s : State) (p : Byte) (a' : Byte) : (s.portRead p).memRead a' = s.memRead a' := rfl
@[simp] theorem State.portRead_scratchPadIndex (s : State) (p : Byte) (a' : Byte) : (s.portRead p).scratchPadIndex a' = s.scratchPadIndex a' := rfl
@[simp] theorem State.portRead_progRead (s : State) (p : Byte) (a' : ProgAddr) : (s.portRead p).progRead a' = s.progRead a' := rfl

/-! ## passBoundary -/

@[simp] theorem State.passBoundary_regs (s : State) : s.passBoundary.regs = s.regs := rfl
@[simp] theorem State.passBoundary_bank (s : State) : s.passBoundary.bank = s.bank := rfl
@[simp] theorem State.passBoundary_pc (s : State) : s.passBoundary.pc = s.pc := rfl
@[simp] theorem State.passBoundary_z (s : State) : s.passBoundary.z = s.z := rfl
@[simp] theorem State.passBoundary_c (s : State) : s.passBoundary.c = s.c := rfl
@[simp] theorem State.passBoundary_ie (s : State) : s.passBoundary.ie = s.ie := rfl
@[simp] theorem State.passBoundary_stack (s : State) : s.passBoundary.stack = s.stack := rfl
@[simp] theorem State.passBoundary_spm (s : State) : s.passBoundary.spm = s.spm := rfl
@[simp] theorem State.passBoundary_generics (s : State) : s.passBoundary.generics = s.generics := rfl
@[simp] theorem State.passBoundary_program (s : State) : s.passBoundary.program = s.program := rfl
@[simp] theorem State.passBoundary_pins (s : State) : s.passBoundary.pins = s.pins.tail := rfl
@[simp] theorem State.passBoundary_inputs (s : State) : s.passBoundary.inputs = s.inputs := rfl
@[simp] theorem State.passBoundary_events (s : State) : s.passBoundary.events = s.events := rfl
@[simp] theorem State.passBoundary_boundary (s : State) : s.passBoundary.boundary = s.boundary + 1 := rfl
@[simp] theorem State.passBoundary_resets (s : State) : s.passBoundary.resets = s.resets := rfl
@[simp] theorem State.passBoundary_overflows (s : State) : s.passBoundary.overflows = s.overflows := rfl
@[simp] theorem State.passBoundary_cycles (s : State) : s.passBoundary.cycles = s.cycles := rfl
@[simp] theorem State.passBoundary_reg (s : State) (b' : Bank) (r' : RegNum) : s.passBoundary.reg b' r' = s.reg b' r' := rfl
@[simp] theorem State.passBoundary_memRead (s : State) (a' : Byte) : s.passBoundary.memRead a' = s.memRead a' := rfl
@[simp] theorem State.passBoundary_scratchPadIndex (s : State) (a' : Byte) : s.passBoundary.scratchPadIndex a' = s.scratchPadIndex a' := rfl
@[simp] theorem State.passBoundary_progRead (s : State) (a' : ProgAddr) : s.passBoundary.progRead a' = s.progRead a' := rfl

/-! ## takeReset -/

@[simp] theorem State.takeReset_bank (s : State) : s.takeReset.bank = .A := rfl
@[simp] theorem State.takeReset_pc (s : State) : s.takeReset.pc = 0x000#12 := rfl
@[simp] theorem State.takeReset_ie (s : State) : s.takeReset.ie = false := rfl
@[simp] theorem State.takeReset_stack (s : State) : s.takeReset.stack = [] := rfl
@[simp] theorem State.takeReset_generics (s : State) : s.takeReset.generics = s.generics := rfl
@[simp] theorem State.takeReset_program (s : State) : s.takeReset.program = s.program := rfl
@[simp] theorem State.takeReset_pins (s : State) : s.takeReset.pins = s.pins := rfl
@[simp] theorem State.takeReset_inputs (s : State) : s.takeReset.inputs = s.inputs := rfl
@[simp] theorem State.takeReset_events (s : State) : s.takeReset.events = s.events := rfl
@[simp] theorem State.takeReset_boundary (s : State) : s.takeReset.boundary = s.boundary := rfl
@[simp] theorem State.takeReset_resets (s : State) : s.takeReset.resets = s.resets + 1 := rfl
@[simp] theorem State.takeReset_overflows (s : State) : s.takeReset.overflows = s.overflows := rfl
@[simp] theorem State.takeReset_cycles (s : State) : s.takeReset.cycles = s.cycles := rfl
@[simp] theorem State.takeReset_scratchPadIndex (s : State) (a' : Byte) : s.takeReset.scratchPadIndex a' = s.scratchPadIndex a' := rfl
@[simp] theorem State.takeReset_progRead (s : State) (a' : ProgAddr) : s.takeReset.progRead a' = s.progRead a' := rfl

/-! ## The composed updates -/

theorem State.setX_eq (s : State) (r : RegNum) (v : Byte) : s.setX r v = s.setReg s.bank r v := rfl
theorem State.setAlt_eq (s : State) (r : RegNum) (v : Byte) : s.setAlt r v = s.setReg s.bank.other r v := rfl
theorem State.x_eq (s : State) (r : RegNum) : s.x r = s.reg s.bank r := rfl
theorem State.advance_eq (s : State) : s.advance = s.goto (s.pc + 1#12) := rfl
theorem State.portWrite_eq (s : State) (p v : Byte) : s.portWrite p v = s.emit (.write p v) := rfl
theorem State.portWriteK_eq (s : State) (p : PortK) (v : Byte) : s.portWriteK p v = s.emit (.writeK p v) := rfl

end Sys2Proof.Machine
end

