-- ==== Sys2Proof/Laws/Ops.lean ====
section
/-! SUPPORT. Each shared operation, said once: everything it can answer. Later proofs cite these instead of unfolding. -/

namespace Sys2Proof.Machine

/-! ## Registers and scratch pad -/

/-- A register write is seen by a read of that register of that bank and by no other. -/
theorem State.reg_setReg (s : State) (b : Bank) (r : RegNum) (v : Byte) (b' : Bank) (r' : RegNum) :
    (s.setReg b r v).reg b' r' = if b' = b ∧ r' = r then v else s.reg b' r' :=
  Registers.read_write s.regs b r v b' r'

theorem ScratchPadSize.bytes_pos (n : ScratchPadSize) : 0 < n.bytes := by cases n <;> decide

theorem State.scratchPadIndex_lt (s : State) (a : Byte) :
    s.scratchPadIndex a < s.generics.scratchPadSize.bytes :=
  Nat.mod_lt _ (ScratchPadSize.bytes_pos _)

/-- A scratch pad write in canonical form is seen by every location that aliases to the one written, and by no other. -/
theorem State.memRead_memWrite (s : State) (hs : Memory.wf s.spm = true) (a v a' : Byte) :
    (s.memWrite a v).memRead a' = if s.scratchPadIndex a' = s.scratchPadIndex a then v else s.memRead a' := by
  by_cases h : s.scratchPadIndex a' = s.scratchPadIndex a
  · rw [if_pos h]
    show Memory.read (Memory.write s.spm (s.scratchPadIndex a) v) (s.scratchPadIndex a') = v
    rw [h, Memory.read_write_same _ hs]
  · rw [if_neg h]
    exact Memory.read_write_other _ _ _ _ h

/-! ## The PC stack -/

/-- `Push` succeeds below 30 frames, and only puts the frame on top. -/
theorem State.push_below (s : State) (f : Frame) (h : s.stack.length < stackLevels) :
    s.push f = some { s with stack := f :: s.stack } := if_pos h

/-- `Push` declines at 30 frames. -/
theorem State.push_full (s : State) (f : Frame) (h : ¬ s.stack.length < stackLevels) : s.push f = none := if_neg h

/-- Entering a subroutine below 30 frames. -/
theorem State.enterSubroutine_below (s : State) (t : ProgAddr) (h : s.stack.length < stackLevels) :
    s.enterSubroutine t = ({ s with stack := .call s.pc :: s.stack } : State).goto t := by
  rw [State.enterSubroutine, State.push_below s _ h]

/-- Entering a subroutine at 30 frames is the internal reset. -/
theorem State.enterSubroutine_full (s : State) (t : ProgAddr) (h : ¬ s.stack.length < stackLevels) :
    s.enterSubroutine t = s.overflowReset := by
  rw [State.enterSubroutine, State.push_full s _ h]

/-- A return from a subroutine, by what is on the stack: it completes on a CALL's frame and faults otherwise. -/
theorem State.returnFromSubroutine_cases (s : State) (load : State → State) :
    (∃ addr rest, s.stack = .call addr :: rest ∧
      s.returnFromSubroutine load = .next ((load { s with stack := rest }).goto (addr + 1#12))) ∨
    (s.stack = [] ∧ s.returnFromSubroutine load = .fault .stackUnderflow) ∨
    (∃ a z c b rest, s.stack = .int a z c b :: rest ∧ s.returnFromSubroutine load = .fault .frameKindMismatch) := by
  cases h : s.stack with
  | nil => exact .inr (.inl ⟨rfl, by simp [State.returnFromSubroutine, State.popCall, h]⟩)
  | cons f rest =>
    cases f with
    | call addr => exact .inl ⟨addr, rest, rfl, by simp [State.returnFromSubroutine, State.popCall, h]⟩
    | int a z c b =>
      exact .inr (.inr ⟨a, z, c, b, rest, rfl, by simp [State.returnFromSubroutine, State.popCall, h]⟩)

/-- A return from an interrupt, by what is on the stack: it completes on an interrupt's frame and faults otherwise. -/
theorem State.returnFromInterrupt_cases (s : State) (ie : Bool) :
    (∃ addr z c b rest, s.stack = .int addr z c b :: rest ∧
      s.returnFromInterrupt ie =
        .next (({ s with stack := rest, z := z, c := c, bank := b, ie := ie } : State).goto addr)) ∨
    (s.stack = [] ∧ s.returnFromInterrupt ie = .fault .stackUnderflow) ∨
    (∃ a rest, s.stack = .call a :: rest ∧ s.returnFromInterrupt ie = .fault .frameKindMismatch) := by
  cases h : s.stack with
  | nil => exact .inr (.inl ⟨rfl, by simp [State.returnFromInterrupt, h]⟩)
  | cons f rest =>
    cases f with
    | call a => exact .inr (.inr ⟨a, rest, rfl, by simp [State.returnFromInterrupt, h]⟩)
    | int addr z c b =>
      exact .inl ⟨addr, z, c, b, rest, rfl, by
        simp [State.returnFromInterrupt, h, State.setFlags, State.setBank, State.setIE]⟩

/-! ## Conditional transfers -/

theorem State.when_true (s : State) (k : Cond) (o : Host.Outcome State Fault Refusal) (h : k.holds s = true) :
    s.when k o = o := if_pos h

theorem State.when_false (s : State) (k : Cond) (o : Host.Outcome State Fault Refusal) (h : k.holds s = false) :
    s.when k o = .next s.advance := if_neg (by simp [h])

/-! ## Interrupt entry and reset -/

/-- Interrupt entry below 30 frames. -/
theorem State.enterInterrupt_below (s : State) (h : s.stack.length < stackLevels) :
    s.enterInterrupt =
      ({ s with stack := .int s.pc s.z s.c s.bank :: s.stack, pc := s.generics.interruptVector, ie := false,
                cycles := s.cycles + s.generics.interruptEntryCycles } : State).emit .intAck := by
  rw [State.enterInterrupt, State.push_below s _ h]

/-- Interrupt entry at 30 frames is the internal reset. -/
theorem State.enterInterrupt_full (s : State) (h : ¬ s.stack.length < stackLevels) :
    s.enterInterrupt = s.overflowReset := by
  rw [State.enterInterrupt, State.push_full s _ h]

/-- What a reset leaves that the spec states or decides. -/
theorem State.takeReset_isReset (s : State) : IsResetFrom s s.takeReset := by
  simp [IsResetFrom, NoPortEvent]

/-- The internal reset leaves the same. -/
theorem State.overflowReset_isReset (s : State) : IsResetFrom s s.overflowReset := by
  simp [IsResetFrom, NoPortEvent, State.overflowReset]

/-! ## One step -/

/-- Everything a step can do in an accepted configuration (60_exceptions.md R259). -/
theorem step_cases (s : State) (h : s.generics.legal = true) :
    (s.levels.reset = true ∧ step s = .next s.passBoundary.takeReset) ∨
    (s.levels.reset = false ∧ s.levels.sleep = true ∧ step s = .next s.passBoundary) ∨
    (s.levels.reset = false ∧ s.levels.sleep = false ∧ s.ie = true ∧ s.levels.interrupt = true ∧
      step s = .next s.passBoundary.enterInterrupt) ∨
    (s.Undisturbed ∧ step s = s.passBoundary.runInstruction) := by
  unfold step State.Undisturbed
  cases hr : s.levels.reset <;> cases hs : s.levels.sleep <;> cases hi : s.ie <;> cases hq : s.levels.interrupt <;>
    simp [h]

/-- Outside the accepted configurations a step refuses. -/
theorem step_illegal (s : State) (h : s.generics.legal = false) : step s = .refused .illegalConfiguration := by
  simp [step, h]

/-- Everything running one instruction can do: the faults of the fetch and the decoder, or the instruction's meaning. -/
theorem State.runInstruction_cases (s : State) :
    (s.progRead s.pc = none ∧ s.runInstruction = .fault .fetchOutsideProgramMemory) ∨
    (∃ w why, s.progRead s.pc = some w ∧ decode w = .reserved why ∧
      s.runInstruction = .fault (.reservedInstruction why)) ∨
    (∃ w i, s.progRead s.pc = some w ∧ decode w = .instr i ∧ s.runInstruction = exec i s) := by
  unfold State.runInstruction
  cases hw : s.progRead s.pc with
  | none => exact .inl ⟨rfl, rfl⟩
  | some w =>
    cases hd : decode w with
    | instr i => exact .inr (.inr ⟨w, i, rfl, hd, by simp [hd]⟩)
    | reserved why => exact .inr (.inl ⟨w, why, rfl, hd, by simp [hd]⟩)

end Sys2Proof.Machine
end

