-- ==== Sys2Proof/Laws/PerInstr.lean ====
section
/-! SUPPORT. Per-instruction laws, one lemma per constructor of Instr. Family OpcodeRow: the word the encoder writes has the fixed
bits of the instruction's own row of the opcode table (30_encoding.md R78). -/

namespace Sys2Proof.Laws.OpcodeRow

/-- The encoding of `i` agrees with its row of R78 on every bit the row's mask names. -/
def Statement (i : Instr) : Prop := (encode i &&& i.row.mask) = i.row.value

theorem loadRR (x y : RegNum) : Statement (.loadRR x y) :=
  (Laws.rowRR_matches _ x y).trans rfl
theorem loadRK (x : RegNum) (kk : Byte) : Statement (.loadRK x kk) :=
  (Laws.rowRK_matches _ x kk).trans rfl
theorem star (x y : RegNum) : Statement (.star x y) :=
  (Laws.rowRR_matches _ x y).trans rfl
theorem disableInterrupt : Statement (.disableInterrupt) :=
  rfl
theorem enableInterrupt : Statement (.enableInterrupt) :=
  rfl
theorem returniDisable : Statement (.returniDisable) :=
  rfl
theorem returniEnable : Statement (.returniEnable) :=
  rfl
theorem sl0 (x : RegNum) : Statement (.sl0 x) :=
  (Laws.rowSH_matches x _).trans rfl
theorem sl1 (x : RegNum) : Statement (.sl1 x) :=
  (Laws.rowSH_matches x _).trans rfl
theorem slx (x : RegNum) : Statement (.slx x) :=
  (Laws.rowSH_matches x _).trans rfl
theorem sla (x : RegNum) : Statement (.sla x) :=
  (Laws.rowSH_matches x _).trans rfl
theorem rl (x : RegNum) : Statement (.rl x) :=
  (Laws.rowSH_matches x _).trans rfl
theorem sr0 (x : RegNum) : Statement (.sr0 x) :=
  (Laws.rowSH_matches x _).trans rfl
theorem sr1 (x : RegNum) : Statement (.sr1 x) :=
  (Laws.rowSH_matches x _).trans rfl
theorem srx (x : RegNum) : Statement (.srx x) :=
  (Laws.rowSH_matches x _).trans rfl
theorem sra (x : RegNum) : Statement (.sra x) :=
  (Laws.rowSH_matches x _).trans rfl
theorem rr (x : RegNum) : Statement (.rr x) :=
  (Laws.rowSH_matches x _).trans rfl
theorem andRR (x y : RegNum) : Statement (.andRR x y) :=
  (Laws.rowRR_matches _ x y).trans rfl
theorem andRK (x : RegNum) (kk : Byte) : Statement (.andRK x kk) :=
  (Laws.rowRK_matches _ x kk).trans rfl
theorem orRR (x y : RegNum) : Statement (.orRR x y) :=
  (Laws.rowRR_matches _ x y).trans rfl
theorem orRK (x : RegNum) (kk : Byte) : Statement (.orRK x kk) :=
  (Laws.rowRK_matches _ x kk).trans rfl
theorem xorRR (x y : RegNum) : Statement (.xorRR x y) :=
  (Laws.rowRR_matches _ x y).trans rfl
theorem xorRK (x : RegNum) (kk : Byte) : Statement (.xorRK x kk) :=
  (Laws.rowRK_matches _ x kk).trans rfl
theorem jump (aaa : ProgAddr) : Statement (.jump aaa) :=
  (Laws.rowA_matches _ aaa).trans rfl
theorem jumpZ (aaa : ProgAddr) : Statement (.jumpZ aaa) :=
  (Laws.rowA_matches _ aaa).trans rfl
theorem jumpNZ (aaa : ProgAddr) : Statement (.jumpNZ aaa) :=
  (Laws.rowA_matches _ aaa).trans rfl
theorem jumpC (aaa : ProgAddr) : Statement (.jumpC aaa) :=
  (Laws.rowA_matches _ aaa).trans rfl
theorem jumpNC (aaa : ProgAddr) : Statement (.jumpNC aaa) :=
  (Laws.rowA_matches _ aaa).trans rfl
theorem jumpAt (x y : RegNum) : Statement (.jumpAt x y) :=
  (Laws.rowRR_matches _ x y).trans rfl
theorem inputRR (x y : RegNum) : Statement (.inputRR x y) :=
  (Laws.rowRR_matches _ x y).trans rfl
theorem inputRK (x : RegNum) (pp : Byte) : Statement (.inputRK x pp) :=
  (Laws.rowRK_matches _ x pp).trans rfl
theorem outputRR (x y : RegNum) : Statement (.outputRR x y) :=
  (Laws.rowRR_matches _ x y).trans rfl
theorem outputRK (x : RegNum) (pp : Byte) : Statement (.outputRK x pp) :=
  (Laws.rowRK_matches _ x pp).trans rfl
theorem outputK (kk : Byte) (p : PortK) : Statement (.outputK kk p) :=
  (Laws.rowKP_matches kk p).trans rfl
theorem addRR (x y : RegNum) : Statement (.addRR x y) :=
  (Laws.rowRR_matches _ x y).trans rfl
theorem addRK (x : RegNum) (kk : Byte) : Statement (.addRK x kk) :=
  (Laws.rowRK_matches _ x kk).trans rfl
theorem addcyRR (x y : RegNum) : Statement (.addcyRR x y) :=
  (Laws.rowRR_matches _ x y).trans rfl
theorem addcyRK (x : RegNum) (kk : Byte) : Statement (.addcyRK x kk) :=
  (Laws.rowRK_matches _ x kk).trans rfl
theorem subRR (x y : RegNum) : Statement (.subRR x y) :=
  (Laws.rowRR_matches _ x y).trans rfl
theorem subRK (x : RegNum) (kk : Byte) : Statement (.subRK x kk) :=
  (Laws.rowRK_matches _ x kk).trans rfl
theorem subcyRR (x y : RegNum) : Statement (.subcyRR x y) :=
  (Laws.rowRR_matches _ x y).trans rfl
theorem subcyRK (x : RegNum) (kk : Byte) : Statement (.subcyRK x kk) :=
  (Laws.rowRK_matches _ x kk).trans rfl
theorem testRR (x y : RegNum) : Statement (.testRR x y) :=
  (Laws.rowRR_matches _ x y).trans rfl
theorem testRK (x : RegNum) (kk : Byte) : Statement (.testRK x kk) :=
  (Laws.rowRK_matches _ x kk).trans rfl
theorem testcyRR (x y : RegNum) : Statement (.testcyRR x y) :=
  (Laws.rowRR_matches _ x y).trans rfl
theorem testcyRK (x : RegNum) (kk : Byte) : Statement (.testcyRK x kk) :=
  (Laws.rowRK_matches _ x kk).trans rfl
theorem compareRR (x y : RegNum) : Statement (.compareRR x y) :=
  (Laws.rowRR_matches _ x y).trans rfl
theorem compareRK (x : RegNum) (kk : Byte) : Statement (.compareRK x kk) :=
  (Laws.rowRK_matches _ x kk).trans rfl
theorem comparecyRR (x y : RegNum) : Statement (.comparecyRR x y) :=
  (Laws.rowRR_matches _ x y).trans rfl
theorem comparecyRK (x : RegNum) (kk : Byte) : Statement (.comparecyRK x kk) :=
  (Laws.rowRK_matches _ x kk).trans rfl
theorem regbankA : Statement (.regbankA) :=
  rfl
theorem regbankB : Statement (.regbankB) :=
  rfl
theorem storeRR (x y : RegNum) : Statement (.storeRR x y) :=
  (Laws.rowRR_matches _ x y).trans rfl
theorem storeRK (x : RegNum) (ss : Byte) : Statement (.storeRK x ss) :=
  (Laws.rowRK_matches _ x ss).trans rfl
theorem fetchRR (x y : RegNum) : Statement (.fetchRR x y) :=
  (Laws.rowRR_matches _ x y).trans rfl
theorem fetchRK (x : RegNum) (ss : Byte) : Statement (.fetchRK x ss) :=
  (Laws.rowRK_matches _ x ss).trans rfl
theorem call (aaa : ProgAddr) : Statement (.call aaa) :=
  (Laws.rowA_matches _ aaa).trans rfl
theorem callZ (aaa : ProgAddr) : Statement (.callZ aaa) :=
  (Laws.rowA_matches _ aaa).trans rfl
theorem callNZ (aaa : ProgAddr) : Statement (.callNZ aaa) :=
  (Laws.rowA_matches _ aaa).trans rfl
theorem callC (aaa : ProgAddr) : Statement (.callC aaa) :=
  (Laws.rowA_matches _ aaa).trans rfl
theorem callNC (aaa : ProgAddr) : Statement (.callNC aaa) :=
  (Laws.rowA_matches _ aaa).trans rfl
theorem callAt (x y : RegNum) : Statement (.callAt x y) :=
  (Laws.rowRR_matches _ x y).trans rfl
theorem ret : Statement (.ret) :=
  rfl
theorem retZ : Statement (.retZ) :=
  rfl
theorem retNZ : Statement (.retNZ) :=
  rfl
theorem retC : Statement (.retC) :=
  rfl
theorem retNC : Statement (.retNC) :=
  rfl
theorem loadReturn (x : RegNum) (kk : Byte) : Statement (.loadReturn x kk) :=
  (Laws.rowRK_matches _ x kk).trans rfl
theorem hwbuild (x : RegNum) : Statement (.hwbuild x) :=
  (Laws.rowSH_matches x _).trans rfl

end Sys2Proof.Laws.OpcodeRow
end

