-- ==== Sys2Proof/Machine/AssemblerText.lean ====
section
/-! DEFINITION. The text of a PSM file read, and the LOG file written (30_encoding.md R87 to R93). Where the source shows no
form the choice is log 30's (the syntax of NAMEREG, other cases of letters, ADDRESS), log 33's (white space, what names and
quoted text may hold, what is read first) or log 34's (the LOG's columns, lines without a word). -/

namespace Sys2Proof.Asm

open Sys2Proof.Machine (Cond)

/-! ## Characters -/

/-- What follows `p` in a text that begins with it. -/
def afterText : (p cs : List Char) → Option (List Char)
  | [], cs => some cs
  | _ :: _, [] => none
  | a :: p, b :: cs => if a = b then afterText p cs else none

/-- Without the spaces at both ends. DESIGN CHOICE (log 33), where R87 is silent: the space is the only white space, and a tab
is a character like any other, so that a word with one is not known. -/
def trimmed (cs : List Char) : List Char :=
  ((cs.dropWhile (· == ' ')).reverse.dropWhile (· == ' ')).reverse

/-- Each character of a text, and whether it belongs to something in double quotes. Outside such, three double quotes are the
character `"` in double quotes (R88). DESIGN CHOICE (log 33), where R90 is silent: any other double quote opens or closes quoted text, so
one inside a STRING's text closes it there, and what follows up to the next one is not quoted. -/
def withQuoting : (quoted : Bool) → List Char → List (Char × Bool)
  | _, [] => []
  | false, '"' :: '"' :: '"' :: rest => ('"', true) :: ('"', true) :: ('"', true) :: withQuoting false rest
  | quoted, ch :: rest =>
    if ch = '"' then (ch, true) :: withQuoting (!quoted) rest else (ch, quoted) :: withQuoting quoted rest

/-- Up to the `;` that starts a comment, if there is one outside double quotes (R87). -/
def uncommented (cs : List Char) : List Char :=
  ((withQuoting false cs).takeWhile fun p => p.1 != ';' || p.2).map Prod.fst

/-- A list's items, at the commas outside double quotes and parentheses (R87); `cur` is the item so far, reversed. -/
def itemsFrom : (inside : Bool) → (cur : List Char) → List (Char × Bool) → List (List Char)
  | _, cur, [] => [trimmed cur.reverse]
  | inside, cur, (ch, true) :: rest => itemsFrom inside (ch :: cur) rest
  | inside, cur, (ch, false) :: rest =>
    if ch = ',' && !inside then trimmed cur.reverse :: itemsFrom false [] rest
    else itemsFrom (if ch = '(' then true else if ch = ')' then false else inside) (ch :: cur) rest

/-- The operands of a line; none where there is no text. -/
def items (cs : List Char) : List (List Char) := if trimmed cs = [] then [] else itemsFrom false [] (withQuoting false cs)

/-! ## Operands (R87, R88, R89) -/

/-- A register: a default name, or a name NAMEREG gave. A default name stands for its register whatever NAMEREG gave (DESIGN
CHOICE, log 30). -/
def readReg (sym : Symbols) (cs : List Char) : Option RegName :=
  let renamed := if (sym.registers.lookup (String.ofList cs)).isSome then some (RegName.renamed (String.ofList cs)) else none
  match cs with
  | ['s', d] =>
    match digitValue d with
    | some n => some (.default (BitVec.ofNat 4 n))
    | none => renamed
  | _ => renamed

/-- The text before a suffix. -/
def beforeText (suffix cs : List Char) : Option (List Char) :=
  (afterText suffix.reverse cs.reverse).map List.reverse

/-- A number: a constant's text, a name CONSTANT gave, `label'upper`, `label'lower`, or a label, read in this order (DESIGN
CHOICE, log 33). -/
def readExpr (sym : Symbols) (cs : List Char) : Expr :=
  match readConstant cs with
  | some _ => .text cs
  | none =>
    if (sym.constants.lookup (String.ofList cs)).isSome then .name (String.ofList cs)
    else
      match beforeText "'upper".toList cs, beforeText "'lower".toList cs with
      | some l, _ => .upper (String.ofList l)
      | none, some l => .lower (String.ofList l)
      | none, none => .label (String.ofList cs)

/-- A condition. -/
def readCond (cs : List Char) : Option Cond :=
  if cs = ['Z'] then some .z
  else if cs = ['N', 'Z'] then some .nz
  else if cs = ['C'] then some .c
  else if cs = ['N', 'C'] then some .nc
  else none

/-- An operand of an instruction that takes no word of its own: `(sY)`, `(sX, sY)`, a register, a string, a number, read in
this order (DESIGN CHOICE, log 33). -/
def readPlain (sym : Symbols) (cs : List Char) : Option Operand :=
  match afterText ['('] cs, beforeText [')'] cs with
  | some _, some _ =>
    match (items (cs.drop 1).dropLast).map (readReg sym) with
    | [some y] => some (.indirect y)
    | [some x, some y] => some (.pair x y)
    | _ => none
  | _, _ =>
    match readReg sym cs, beforeText ['$'] cs with
    | some r, _ => some (.reg r)
    | none, some _ => some (.string (String.ofList cs))
    | none, none => if cs = [] then none else some (.value (readExpr sym cs))

/-- One operand: a word where the mnemonic takes one, a condition before the address of a JUMP or CALL and after RETURN. A lone
operand of JUMP or CALL is an address, be it spelled as a condition (DESIGN CHOICE, log 33). -/
def readOperand (sym : Symbols) (m : Mnemonic) (more : Bool) (cs : List Char) : Option Operand :=
  match m with
  | .regbank => if cs = ['A'] then some (.bank .A) else if cs = ['B'] then some (.bank .B) else none
  | .returni =>
    if cs = "ENABLE".toList then some (.enable true)
    else if cs = "DISABLE".toList then some (.enable false)
    else none
  | .return => (readCond cs).map .cond
  | .jump | .call => if more then (readCond cs).map .cond else readPlain sym cs
  | _ => readPlain sym cs

/-- The operands of an instruction. -/
def readOperands (sym : Symbols) (m : Mnemonic) : List (List Char) → Option (List Operand)
  | [] => some []
  | cs :: rest =>
    match readOperand sym m (decide (rest ≠ [])) cs, readOperands sym m rest with
    | some o, some os => some (o :: os)
    | _, _ => none

/-! ## Lines (R87, R90) -/

/-- Every mnemonic, in R87's order. -/
def mnemonics : List Mnemonic :=
  [.load, .star, .and, .or, .xor, .add, .addcy, .sub, .subcy, .test, .testcy, .compare, .comparecy, .sl0, .sl1, .slx,
   .sla, .rl, .sr0, .sr1, .srx, .sra, .rr, .regbank, .input, .output, .outputk, .store, .fetch, .disableInterrupt,
   .enableInterrupt, .returni, .jump, .jumpAt, .call, .callAt, .return, .loadReturn, .hwbuild]

/-- What follows a word: nothing, or a space and the rest. DESIGN CHOICE (log 33), where R87 is silent: a space, and no other
character, parts a mnemonic or a directive's name from its operands. -/
def afterWord (word cs : List Char) : Option (List Char) :=
  match afterText word cs with
  | some [] => some []
  | some (' ' :: rest) => some rest
  | _ => none

/-- The mnemonic a text begins with, and what follows it. -/
def readMnemonic (cs : List Char) : List Mnemonic → Option (Mnemonic × List Char)
  | [] => none
  | m :: ms =>
    match afterWord m.spelling.toList cs with
    | some rest => some (m, rest)
    | none => readMnemonic cs ms

/-- `CONSTANT name, value`. -/
def readConstantLine (sym : Symbols) (cs : List Char) : Option Body :=
  match items cs with
  | [n, v] => some (.constant (String.ofList n) (readExpr sym v))
  | _ => none

/-- `STRING name$, "text"`: the text runs to the operand's last double quote and may be empty. DESIGN CHOICE (log 33), where
R90 is silent: a double quote inside the text stands for itself, but after it a `;` starts a comment and a `,` parts an operand
(`withQuoting`), so that the text ends earlier or the line is refused. -/
def readStringLine (cs : List Char) : Option Body :=
  match items cs with
  | [n, v] =>
    match afterText ['"'] v, beforeText ['"'] v, beforeText ['$'] n with
    | some rest, some _, some _ => if rest = [] then none else some (.string (String.ofList n) rest.dropLast)
    | _, _, _ => none
  | _ => none

/-- `ADDRESS aaa`. DESIGN CHOICE (log 30): R90 shows `ADDRESS 3D0` alone; any form of a constant's text below 1000 is taken, a
name that CONSTANT gave and a label are refused. -/
def readAddressLine (cs : List Char) : Option Body :=
  match readConstant (trimmed cs) with
  | some n => if n < 4096 then some (.address (BitVec.ofNat 12 n)) else none
  | none => none

/-- What a line holds, its label taken away and its comment apart. -/
def readBody (sym : Symbols) (comment cs : List Char) : Option Body :=
  if cs = [] then some (.blank comment)
  else
    match afterWord "CONSTANT".toList cs, afterWord "STRING".toList cs, afterWord "ADDRESS".toList cs with
    | some rest, _, _ => readConstantLine sym rest
    | none, some rest, _ => readStringLine rest
    | none, none, some rest => readAddressLine rest
    | none, none, none =>
      match readMnemonic cs mnemonics with
      | some (m, rest) => (readOperands sym m (items rest)).map fun ops => .instr m ops
      | none => none

/-- A character of a label: neither a space nor a double quote (DESIGN CHOICE, log 33). -/
def isLabelChar (ch : Char) : Bool := ch != ' ' && ch != '"'

/-- A line (R87): `[label:] MNEMONIC [operand][, operand]`. A label is a name, so it is not empty (R89). -/
def readLine (sym : Symbols) (cs : List Char) : Option Line :=
  let uncommentedText := uncommented cs
  let comment := cs.drop uncommentedText.length
  let text := trimmed uncommentedText
  let first := text.takeWhile (· != ':')
  if first ≠ [] ∧ first ≠ text ∧ first.all isLabelChar = true then
    (readBody sym comment (trimmed (text.drop (first.length + 1)))).map fun b => ⟨some (String.ofList first), b⟩
  else (readBody sym comment text).map fun b => ⟨none, b⟩

/-- A file's lines. -/
def readLines : Symbols → List (List Char) → Option (List Line)
  | _, [] => some []
  | sym, cs :: rest =>
    match readLine sym cs with
    | some l => (readLines ((l.body.define sym).getD sym) rest).map fun ls => l :: ls
    | none => none

/-- The lines of a PSM file's text. They are read twice, since a label may stand before its line: first for the labels'
addresses, which do not depend on a number's value, then with the labels known. -/
def readFile (text : List String) : Option (List Line) :=
  match readLines ⟨[], [], [], []⟩ (text.map String.toList) with
  | some lines => readLines (fileSymbols lines) (text.map String.toList)
  | none => none

/-- Assemble a PSM file's text. -/
def assembleText (text : List String) : Option (List (ProgAddr × IWord)) := (readFile text).bind assembleFile

/-! ## The LOG file (R93) -/

/-- A source spelling in square brackets. -/
def bracketed (cs : List Char) : List Char := ['['] ++ cs ++ [']']

/-- A register in the LOG: its default name, and the name NAMEREG gave where the source used it. -/
def RegName.logText (sym : Symbols) (r : RegName) : List Char :=
  let resolved := 's' :: hexText 1 ((r.num sym).getD 0x0#4).toNat
  match r with
  | .default _ => resolved
  | .renamed n => resolved ++ bracketed n.toList

/-- A number in the LOG, with `d` digits: its value, and its source spelling unless that is hexadecimal already. -/
def Expr.logText (sym : Symbols) (d : Nat) (e : Expr) : List Char :=
  let resolved := hexText d ((e.value sym).getD 0)
  match e with
  | .text cs => if readDigits 16 cs = none then resolved ++ bracketed cs else resolved
  | .name n => resolved ++ bracketed n.toList
  | .label l => resolved ++ bracketed l.toList
  | .upper l => resolved ++ bracketed (l.toList ++ "'upper".toList)
  | .lower l => resolved ++ bracketed (l.toList ++ "'lower".toList)
  | .code n b => resolved ++ bracketed (n.toList ++ [':', '"', Char.ofNat b.toNat, '"'])

/-- A condition's text. -/
def condText : Cond → List Char
  | .z => ['Z'] | .nz => ['N', 'Z'] | .c => ['C'] | .nc => ['N', 'C']

/-- An operand in the LOG. -/
def Operand.logText (sym : Symbols) (d : Nat) : Operand → List Char
  | .reg r => r.logText sym
  | .value e => e.logText sym d
  | .indirect r => ['('] ++ r.logText sym ++ [')']
  | .pair x y => ['('] ++ x.logText sym ++ [',', ' '] ++ y.logText sym ++ [')']
  | .cond k => condText k
  | .enable on => if on then "ENABLE".toList else "DISABLE".toList
  | .bank .A => ['A']
  | .bank .B => ['B']
  | .string n => n.toList

/-- How many digits a number has: three for an address, one for OUTPUTK's port, two otherwise. -/
def digits (m : Mnemonic) (rest : List Operand) : Nat :=
  match m with
  | .jump | .call => 3
  | .outputk => if rest = [] then 1 else 2
  | _ => 2

/-- Operands in the LOG, separated by commas. -/
def operandsLog (sym : Symbols) (m : Mnemonic) : List Operand → List Char
  | [] => []
  | [o] => o.logText sym (digits m [])
  | o :: rest => o.logText sym (digits m rest) ++ [',', ' '] ++ operandsLog sym m rest

/-- An instruction in the LOG: `MNEMONIC [operand][, operand]`. -/
def instrLog (sym : Symbols) (m : Mnemonic) (ops : List Operand) : List Char :=
  if ops = [] then m.spelling.toList else m.spelling.toList ++ [' '] ++ operandsLog sym m ops

/-- A line's label in the LOG, where there is one. -/
def labelLog : Option String → List Char
  | some l => l.toList ++ [':', ' ']
  | none => []

/-- A LOG line (R93): three-digit address, five-digit word, the label where there is one, the instruction. -/
def logLine (sym : Symbols) (a : ProgAddr) (label : Option String) (m : Mnemonic) (ops : List Operand) :
    Option (List Char) :=
  (assemble sym m ops).map fun i =>
    hexText 3 a.toNat ++ [' ', ' '] ++ hexText 5 (encode i).toNat ++ [' ', ' '] ++ labelLog label ++ instrLog sym m ops

/-- A comment line in the LOG (R93): the address and no word, spaced as R93 prints it. The place of a label on such a line is
the model's choice (log 34). -/
def commentLog (a : ProgAddr) (label : Option String) (comment : List Char) : List Char :=
  hexText 3 a.toNat ++ List.replicate 18 ' ' ++ labelLog label ++ comment

/-- The LOG lines of successive instructions: the label names the first word (R91). -/
def copiesLog (sym : Symbols) (m : Mnemonic) : ProgAddr → Option String → List (List Operand) → Option (List (List Char))
  | _, _, [] => some []
  | a, label, ops :: rest =>
    match logLine sym a label m ops, copiesLog sym m (a + 1#12) none rest with
    | some line, some lines => some (line :: lines)
    | _, _ => none

/-- The LOG lines of one line: one for each instruction, one for a comment or an empty line. A directive has none (DESIGN
CHOICE, log 34: R93 shows no such line). -/
def Line.log (sym : Symbols) (a : ProgAddr) (l : Line) : Option (List (List Char)) :=
  match l.body with
  | .instr m ops => copiesLog sym m a l.label (copiesOf sym m ops)
  | .blank comment => some [commentLog a l.label comment]
  | .address _ => some []
  | .constant _ _ => some []
  | .namereg _ _ => some []
  | .string _ _ => some []

/-- The LOG file of a file's lines. -/
def logFile (lines : List Line) : Option (List (List Char)) := linesFrom Line.log (fileSymbols lines) 0x000#12 lines

/-- The LOG file of a PSM file's text. -/
def logText (text : List String) : Option (List (List Char)) := (readFile text).bind logFile

end Sys2Proof.Asm
end

