-- ==== Sys2Proof/Tests/Slice0.lean ====
section
/-! SUPPORT. Tests. Every expected result is the spec's own: 95_test_vectors.md (its worked examples E<n>, its derived vectors
of sections 3 to 5) or the rule named; no result was read off the model. Then the witnesses: for each statement with
hypotheses, a case that meets them all. -/

namespace Sys2Proof.Tests

open Sys2Proof.Machine

/-! ## Helpers -/

/-- A state after reset with bank A's registers, `Z` and `C` as listed, and the pins Low at the coming boundary. -/
def start (rs : List (RegNum × Byte)) (z c : Bool) : State :=
  (rs.foldl (fun (s : State) q => s.setReg .A q.1 q.2) { State.reset with pins := [Levels.quiet] }).setFlags z c

/-- The instruction of a word gives a next state of which `p` holds. -/
def runs (w : IWord) (s : State) (p : State → Bool) : Bool :=
  match decode w with
  | .instr i => match exec i s with
    | .next t => p t
    | _ => false
  | .reserved _ => false

/-- The instruction of a word faults with `f`. -/
def faults (w : IWord) (s : State) (f : Fault) : Bool :=
  match decode w with
  | .instr i => match exec i s with
    | .fault g => decide (g = f)
    | _ => false
  | .reserved _ => false

/-- A step gives a next state of which `p` holds. -/
def steps (s : State) (p : State → Bool) : Bool :=
  match step s with
  | .next t => p t
  | _ => false

/-- A step faults with `f`. -/
def stepFaults (s : State) (f : Fault) : Bool :=
  match step s with
  | .fault g => decide (g = f)
  | _ => false

/-- From registers, `Z`, `C` and `pc` 000 to registers, `Z`, `C` and `pc` 001. -/
def computes (w : IWord) (rs : List (RegNum × Byte)) (z c : Bool) (rs' : List (RegNum × Byte)) (z' c' : Bool) : Bool :=
  runs w (start rs z c) fun t =>
    rs'.all (fun q => t.reg .A q.1 == q.2) && t.z == z' && t.c == c' && t.pc == 0x001#12

/-- `start` with an address and a stack. -/
def startAt (pc : ProgAddr) (z c : Bool) (stack : List Frame) : State :=
  { start [] z c with pc := pc, stack := stack }

/-- From `pc` 010, `Z` and `C` to `pc` `a`, nothing on the stack. -/
def jumps (w : IWord) (z c : Bool) (a : ProgAddr) : Bool :=
  runs w (startAt 0x010#12 z c []) fun t => t.pc == a && t.stack == [] && t.z == z && t.c == c

/-- From `pc` 123 with `stack`, `Z` and `C` to `pc` `a` with `stack'`. -/
def calls (w : IWord) (z c : Bool) (stack : List Frame) (a : ProgAddr) (stack' : List Frame) : Bool :=
  runs w (startAt 0x123#12 z c stack) fun t => t.pc == a && t.stack == stack' && t.z == z && t.c == c

/-- A full stack. -/
def fullStack : List Frame := List.replicate 30 (.call 0x050#12)

/-! ## Configurations (WellFormed; 93 M4) -/

theorem test_programMemorySize_zero_refused :
    ({ defaultGenerics with programMemorySize := 0 } : Generics).legal = false :=
  by decide

theorem test_programMemorySize_4097_refused :
    ({ defaultGenerics with programMemorySize := 4097 } : Generics).legal = false :=
  by decide

theorem test_programMemorySize_bounds_accepted :
    ({ defaultGenerics with programMemorySize := 1 } : Generics).legal = true ∧ ({ defaultGenerics with programMemorySize := 4096 } : Generics).legal = true :=
  by decide

theorem test_illegal_configuration_refused :
    (match step { State.reset with generics := { defaultGenerics with programMemorySize := 0 } } with
      | .refused r => decide (r = .illegalConfiguration)
      | _ => false) = true :=
  by decide

theorem test_every_operand_wellFormed :
    (Instr.outputK 0xFF 0xF).wellFormed = true ∧ (Instr.jump 0xFFF).wellFormed = true :=
  by decide

/-! ## Decoding: words written out bit by bit from the formats of R72, one for every instruction -/

theorem test_decode_loading :
    decode 0b000000011110100000#18 = .instr (.loadRR 0x7 0xA) ∧
    decode 0b000001101010001110#18 = .instr (.loadRK 0xA 0x8E) ∧
    decode 0b010110111000010000#18 = .instr (.star 0xE 0x1) ∧
    decode 0b110111000000000000#18 = .instr .regbankA ∧
    decode 0b110111000000000001#18 = .instr .regbankB := by decide

theorem test_decode_logical :
    decode 0b000010101010110000#18 = .instr (.andRR 0xA 0xB) ∧
    decode 0b000011101001010011#18 = .instr (.andRK 0xA 0x53) ∧
    decode 0b000100101010110000#18 = .instr (.orRR 0xA 0xB) ∧
    decode 0b000101101001010011#18 = .instr (.orRK 0xA 0x53) ∧
    decode 0b000110101010110000#18 = .instr (.xorRR 0xA 0xB) ∧
    decode 0b000111101001010011#18 = .instr (.xorRK 0xA 0x53) := by decide

theorem test_decode_arithmetic :
    decode 0b010000000100100000#18 = .instr (.addRR 0x1 0x2) ∧
    decode 0b010001101001000011#18 = .instr (.addRK 0xA 0x43) ∧
    decode 0b010010000100100000#18 = .instr (.addcyRR 0x1 0x2) ∧
    decode 0b010011101101011101#18 = .instr (.addcyRK 0xB 0x5D) ∧
    decode 0b011000000100100000#18 = .instr (.subRR 0x1 0x2) ∧
    decode 0b011001101001000011#18 = .instr (.subRK 0xA 0x43) ∧
    decode 0b011010000100100000#18 = .instr (.subcyRR 0x1 0x2) ∧
    decode 0b011011101110100001#18 = .instr (.subcyRK 0xB 0xA1) := by decide

theorem test_decode_test_compare :
    decode 0b001100000100100000#18 = .instr (.testRR 0x1 0x2) ∧
    decode 0b001101101001000000#18 = .instr (.testRK 0xA 0x40) ∧
    decode 0b001110000100100000#18 = .instr (.testcyRR 0x1 0x2) ∧
    decode 0b001111101111111111#18 = .instr (.testcyRK 0xB 0xFF) ∧
    decode 0b011100000100100000#18 = .instr (.compareRR 0x1 0x2) ∧
    decode 0b011101101010001110#18 = .instr (.compareRK 0xA 0x8E) ∧
    decode 0b011110000100100000#18 = .instr (.comparecyRR 0x1 0x2) ∧
    decode 0b011111101110100010#18 = .instr (.comparecyRK 0xB 0xA2) := by decide

theorem test_decode_shift_rotate :
    decode 0b010100101000000110#18 = .instr (.sl0 0xA) ∧
    decode 0b010100101000000111#18 = .instr (.sl1 0xA) ∧
    decode 0b010100101000000100#18 = .instr (.slx 0xA) ∧
    decode 0b010100101000000000#18 = .instr (.sla 0xA) ∧
    decode 0b010100101000000010#18 = .instr (.rl 0xA) ∧
    decode 0b010100101000001110#18 = .instr (.sr0 0xA) ∧
    decode 0b010100101000001111#18 = .instr (.sr1 0xA) ∧
    decode 0b010100101000001010#18 = .instr (.srx 0xA) ∧
    decode 0b010100101000001000#18 = .instr (.sra 0xA) ∧
    decode 0b010100101000001100#18 = .instr (.rr 0xA) := by decide

theorem test_decode_ports :
    decode 0b001000000100100000#18 = .instr (.inputRR 0x1 0x2) ∧
    decode 0b001001001100000101#18 = .instr (.inputRK 0x3 0x05) ∧
    decode 0b101100011000100000#18 = .instr (.outputRR 0x6 0x2) ∧
    decode 0b101101001100000101#18 = .instr (.outputRK 0x3 0x05) ∧
    decode 0b101011011000011010#18 = .instr (.outputK 0x61 0xA) := by decide

theorem test_decode_scratch_pad :
    decode 0b101110000100100000#18 = .instr (.storeRR 0x1 0x2) ∧
    decode 0b101111011000111100#18 = .instr (.storeRK 0x6 0x3C) ∧
    decode 0b001010010001010000#18 = .instr (.fetchRR 0x4 0x5) ∧
    decode 0b001011001101110000#18 = .instr (.fetchRK 0x3 0x70) := by decide

theorem test_decode_interrupt :
    decode 0b101000000000000000#18 = .instr .disableInterrupt ∧
    decode 0b101000000000000001#18 = .instr .enableInterrupt ∧
    decode 0b101001000000000000#18 = .instr .returniDisable ∧
    decode 0b101001000000000001#18 = .instr .returniEnable := by decide

theorem test_decode_jump :
    decode 0b100010000000101011#18 = .instr (.jump 0x02B) ∧
    decode 0b110010000100100011#18 = .instr (.jumpZ 0x123) ∧
    decode 0b110110000100100011#18 = .instr (.jumpNZ 0x123) ∧
    decode 0b111010000100100011#18 = .instr (.jumpC 0x123) ∧
    decode 0b111110000100100011#18 = .instr (.jumpNC 0x123) ∧
    decode 0b100110101110100000#18 = .instr (.jumpAt 0xB 0xA) := by decide

theorem test_decode_subroutine :
    decode 0b100000001000000000#18 = .instr (.call 0x200) ∧
    decode 0b110000001000000000#18 = .instr (.callZ 0x200) ∧
    decode 0b110100001000000000#18 = .instr (.callNZ 0x200) ∧
    decode 0b111000001000000000#18 = .instr (.callC 0x200) ∧
    decode 0b111100001000000000#18 = .instr (.callNC 0x200) ∧
    decode 0b100100101110100000#18 = .instr (.callAt 0xB 0xA) ∧
    decode 0b100001000101001000#18 = .instr (.loadReturn 0x1 0x48) ∧
    decode 0b010100111110000000#18 = .instr (.hwbuild 0xF) := by decide

theorem test_decode_return :
    decode 0b100101000000000000#18 = .instr .ret ∧
    decode 0b110001000000000000#18 = .instr .retZ ∧
    decode 0b110101000000000000#18 = .instr .retNZ ∧
    decode 0b111001000000000000#18 = .instr .retC ∧
    decode 0b111101000000000000#18 = .instr .retNC := by decide

/-! ## Decoding: reserved words and word widths (95_test_vectors.md section 4; R70, R84) -/

theorem test_reserved_low_digit :
    decode 0x00001#18 = .reserved .lowDigit ∧
    decode 0x0000F#18 = .reserved .lowDigit ∧
    decode 0x26001#18 = .reserved .lowDigit ∧
    decode 0x24001#18 = .reserved .lowDigit ∧
    decode 0x16001#18 = .reserved .lowDigit ∧
    decode 0x2C001#18 = .reserved .lowDigit ∧
    decode 0x1E001#18 = .reserved .lowDigit :=
  by decide

theorem test_reserved_shift_selector :
    decode 0x14001#18 = .reserved .shiftSelector ∧
    decode 0x1400D#18 = .reserved .shiftSelector ∧
    decode 0x14010#18 = .reserved .shiftSelector ∧
    decode 0x14081#18 = .reserved .shiftSelector ∧
    decode 0x140FF#18 = .reserved .shiftSelector :=
  by decide

theorem test_reserved_opcode :
    decode 0x15000#18 = .reserved .unlistedOpcode ∧
    decode 0x17000#18 = .reserved .unlistedOpcode ∧
    decode 0x23000#18 = .reserved .unlistedOpcode ∧
    decode 0x27000#18 = .reserved .unlistedOpcode ∧
    decode 0x2A000#18 = .reserved .unlistedOpcode ∧
    decode 0x33000#18 = .reserved .unlistedOpcode ∧
    decode 0x3B000#18 = .reserved .unlistedOpcode ∧
    decode 0x3FFFF#18 = .reserved .unlistedOpcode :=
  by decide

theorem test_reserved_fixed_operand :
    decode 0x28002#18 = .reserved .fixedOperand ∧
    decode 0x29002#18 = .reserved .fixedOperand ∧
    decode 0x25001#18 = .reserved .fixedOperand ∧
    decode 0x25FFF#18 = .reserved .fixedOperand ∧
    decode 0x31001#18 = .reserved .fixedOperand ∧
    decode 0x37002#18 = .reserved .fixedOperand ∧
    decode 0x37100#18 = .reserved .fixedOperand :=
  by decide

theorem test_table_word :
    decodeTableWord 18 0x01A8E = some (.loadRK 0xA 0x8E) ∧ decodeTableWord 24 0x15000 = none ∧
    decodeTableWord 24 0x41A8E = none :=
  by decide

/-- Words the spec prints (E21, E23, E32). -/
theorem test_encode_printed :
    encode (.loadRK 0xB 0x07) = 0x01B07#18 ∧ encode (.storeRK 0x6 0x3C) = 0x2F63C#18 ∧
    encode (.outputK 0x48 0x8) = 0x2B488#18 ∧ encode (.hwbuild 0x0) = 0x14080#18 :=
  by decide

/-! ## Registers, logic, arithmetic, test and compare (E1 to E12, sections 3.1 to 3.4) -/

theorem test_load_register :
    computes 0x00F10#18 [(0x1, 0xC3), (0xF, 0x00)] false true [(0xF, 0xC3), (0x1, 0xC3)] false true = true :=
  by decide

theorem test_load_constant_keeps_flags :
    computes 0x01200#18 [(0x2, 0x77)] false false [(0x2, 0x00)] false false = true :=
  by decide

theorem test_and_register :
    computes 0x02AB0#18 [(0xA, 0xCA), (0xB, 0x14)] false true [(0xA, 0x00), (0xB, 0x14)] true false = true :=
  by decide

theorem test_and_constant : computes 0x03A53#18 [(0xA, 0xCA)] true true [(0xA, 0x42)] false false = true := by decide

theorem test_or_register :
    computes 0x04120#18 [(0x1, 0xF0), (0x2, 0x0F)] true true [(0x1, 0xFF), (0x2, 0x0F)] false false = true :=
  by decide

theorem test_or_constant : computes 0x05A53#18 [(0xA, 0xCA)] false true [(0xA, 0xDB)] false false = true := by decide

theorem test_xor_register_itself :
    computes 0x06110#18 [(0x1, 0x9E)] false true [(0x1, 0x00)] true false = true :=
  by decide

theorem test_xor_constant : computes 0x07A53#18 [(0xA, 0xCA)] false true [(0xA, 0x99)] false false = true := by decide

theorem test_add_register_itself :
    computes 0x10AA0#18 [(0xA, 0x8E)] false false [(0xA, 0x1C)] false true = true :=
  by decide

theorem test_add_constant_wraps :
    computes 0x11A72#18 [(0xA, 0x8E)] false false [(0xA, 0x00)] true true = true :=
  by decide

theorem test_add_ignores_carry :
    computes 0x11100#18 [(0x1, 0x00)] false true [(0x1, 0x00)] true false = true :=
  by decide

theorem test_addcy_register :
    computes 0x12120#18 [(0x1, 0xFF), (0x2, 0xFF)] true true [(0x1, 0xFF), (0x2, 0xFF)] false true = true :=
  by decide

theorem test_addcy_zero_needs_zero :
    computes 0x13100#18 [(0x1, 0xFF)] false true [(0x1, 0x00)] false true = true :=
  by decide

theorem test_addcy_constant : computes 0x13101#18 [(0x1, 0x01)] true true [(0x1, 0x03)] false false = true := by decide

theorem test_sub_register_itself :
    computes 0x18AA0#18 [(0xA, 0x8E)] false true [(0xA, 0x00)] true false = true :=
  by decide

theorem test_sub_constant_borrows :
    computes 0x19AB5#18 [(0xA, 0x8E)] false false [(0xA, 0xD9)] false true = true :=
  by decide

theorem test_subcy_register :
    computes 0x1A120#18 [(0x1, 0x10), (0x2, 0x20)] true false [(0x1, 0xF0), (0x2, 0x20)] false true = true :=
  by decide

theorem test_subcy_whole_range : computes 0x1B1FF#18 [(0x1, 0x00)] true true [(0x1, 0x00)] true true = true := by decide

theorem test_test_register : computes 0x0C110#18 [(0x1, 0x07)] true false [(0x1, 0x07)] false true = true := by decide

theorem test_test_constant_even :
    computes 0x0D1FF#18 [(0x1, 0xFF)] true true [(0x1, 0xFF)] false false = true :=
  by decide

theorem test_testcy_register :
    computes 0x0E120#18 [(0x1, 0xFF), (0x2, 0x03)] false true [(0x1, 0xFF), (0x2, 0x03)] false true = true :=
  by decide

theorem test_testcy_constant_zero :
    computes 0x0F100#18 [(0x1, 0xFF)] true true [(0x1, 0xFF)] true true = true :=
  by decide

theorem test_compare_register_unsigned :
    computes 0x1C120#18 [(0x1, 0x7F), (0x2, 0x80)] true false [(0x1, 0x7F), (0x2, 0x80)] false true = true :=
  by decide

theorem test_compare_constant_equal :
    computes 0x1DA8E#18 [(0xA, 0x8E)] false true [(0xA, 0x8E)] true false = true :=
  by decide

theorem test_comparecy_register :
    computes 0x1E120#18 [(0x1, 0x43), (0x2, 0x42)] true true [(0x1, 0x43), (0x2, 0x42)] true false = true :=
  by decide

theorem test_comparecy_constant :
    computes 0x1F142#18 [(0x1, 0x42)] true true [(0x1, 0x42)] false true = true :=
  by decide

/-- E16: `STAR sE, s1` with bank A active. -/
theorem test_star_writes_other_bank :
    runs 0x16E10#18 (start [(0x1, 0x9C), (0xE, 0x55)] false false) (fun t =>
      t.reg .B 0xE == 0x9C#8 && t.reg .A 0xE == 0x55#8 && t.bank == .A) = true :=
  by decide

/-- Section 3.1: `STAR s0, s0` with bank B active. -/
theorem test_star_from_bank_B :
    runs 0x16000#18 ({ start [(0x0, 0x12)] false false with bank := .B }.setReg .B 0x0 0x34) (fun t =>
      t.reg .A 0x0 == 0x34#8 && t.reg .B 0x0 == 0x34#8) = true :=
  by decide

theorem test_regbank_B :
    runs 0x37001#18 ((start [(0x0, 0x12)] true true).setReg .B 0x0 0x34) (fun t =>
      t.bank == .B && t.x 0x0 == 0x34#8 && t.reg .A 0x0 == 0x12#8 && t.z && t.c) = true :=
  by decide

theorem test_regbank_A :
    runs 0x37000#18 { start [] false false with bank := .B } (fun t => t.bank == .A) = true :=
  by decide

/-! ## Shift and rotate (section 3.5) -/

theorem test_sl0_out : computes 0x14106#18 [(0x1, 0x80)] false false [(0x1, 0x00)] true true = true := by decide

theorem test_sl1_in : computes 0x14107#18 [(0x1, 0xFF)] false false [(0x1, 0xFF)] false true = true := by decide

theorem test_slx_one : computes 0x14104#18 [(0x1, 0x01)] false false [(0x1, 0x03)] false false = true := by decide

theorem test_slx_zero : computes 0x14104#18 [(0x1, 0xFE)] false true [(0x1, 0xFC)] false true = true := by decide

theorem test_sla_carry_in : computes 0x14100#18 [(0x1, 0x00)] false true [(0x1, 0x01)] false false = true := by decide

theorem test_sla_carry_out : computes 0x14100#18 [(0x1, 0x80)] false false [(0x1, 0x00)] true true = true := by decide

theorem test_rl_around : computes 0x14102#18 [(0x1, 0x80)] false false [(0x1, 0x01)] false true = true := by decide

theorem test_rl_bits : computes 0x14102#18 [(0x1, 0xC3)] false false [(0x1, 0x87)] false true = true := by decide

theorem test_sr0_out : computes 0x1410E#18 [(0x1, 0x01)] false false [(0x1, 0x00)] true true = true := by decide

theorem test_sr1_in : computes 0x1410F#18 [(0x1, 0x00)] false true [(0x1, 0x80)] false false = true := by decide

theorem test_srx_sign : computes 0x1410A#18 [(0x1, 0x80)] false false [(0x1, 0xC0)] false false = true := by decide

theorem test_srx_positive : computes 0x1410A#18 [(0x1, 0x7F)] false false [(0x1, 0x3F)] false true = true := by decide

theorem test_sra_carry_in : computes 0x14108#18 [(0x1, 0x01)] false true [(0x1, 0x80)] false true = true := by decide

theorem test_sra_carry_out : computes 0x14108#18 [(0x1, 0x01)] false false [(0x1, 0x00)] true true = true := by decide

theorem test_rr_around : computes 0x1410C#18 [(0x1, 0x01)] false false [(0x1, 0x80)] false true = true := by decide

theorem test_rr_bits : computes 0x1410C#18 [(0x1, 0xC3)] false false [(0x1, 0xE1)] false true = true := by decide

/-! ## Ports and scratch pad (sections 3.6, 3.7) -/

theorem test_input_register_old_port :
    runs 0x08110#18 { start [(0x1, 0x10)] false true with inputs := [0x99] } (fun t =>
      t.x 0x1 == 0x99#8 && t.events == [.read 0x10] && t.inputs == [] && !t.z && t.c) = true :=
  by decide

theorem test_input_port :
    runs 0x09300#18 { start [(0x3, 0xFF)] false false with inputs := [0x00, 0x77] } (fun t =>
      t.x 0x3 == 0x00#8 && t.events == [.read 0x00] && t.inputs == [0x77#8] && !t.z) = true :=
  by decide

theorem test_output_register :
    runs 0x2C010#18 (start [(0x0, 0x12), (0x1, 0xFE)] true true) (fun t =>
      t.events == [.write 0xFE 0x12] && t.z && t.c) = true :=
  by decide

theorem test_output_port :
    runs 0x2DB40#18 (start [(0xB, 0xC4)] false false) (fun t => t.events == [.write 0x40 0xC4]) = true :=
  by decide

theorem test_outputk :
    runs 0x2B61A#18 (start [] false true) (fun t => t.events == [.writeK 0xA 0x61] && !t.z && t.c) = true :=
  by decide

/-- 90 C13: location 5A of 64 is location 1A. -/
theorem test_store_aliases :
    runs 0x2F35A#18 (start [(0x3, 0xE7)] true false) (fun t => t.spm == [(0x1A, 0xE7)] && t.z) = true :=
  by decide

theorem test_store_256 :
    runs 0x2F3FF#18 { start [(0x3, 0xE7)] false false with
      generics := { defaultGenerics with scratchPadSize := .bytes256 } } (fun t => t.spm == [(0xFF, 0xE7)]) = true :=
  by decide

theorem test_store_register :
    runs 0x2E120#18 (start [(0x1, 0xAB), (0x2, 0x40)] false false) (fun t => t.spm == [(0x00, 0xAB)]) = true :=
  by decide

theorem test_fetch_aliases :
    runs 0x0B06A#18 { start [] false true with spm := [(0x2A, 0x77)] } (fun t =>
      t.x 0x0 == 0x77#8 && t.spm == [(0x2A, 0x77)] && t.c) = true :=
  by decide

theorem test_fetch_register :
    runs 0x0A000#18 { start [(0x0, 0x05)] false false with spm := [(0x05, 0xC1)] } (fun t => t.x 0x0 == 0xC1#8) = true :=
  by decide

/-! ## Jumps (section 3.8) -/

theorem test_jump : jumps 0x22123#18 true true 0x123#12 = true := by decide

theorem test_jumpZ :
    jumps 0x32123#18 true false 0x123#12 = true ∧ jumps 0x32123#18 false true 0x011#12 = true :=
  by decide

theorem test_jumpNZ :
    jumps 0x36123#18 false true 0x123#12 = true ∧ jumps 0x36123#18 true false 0x011#12 = true :=
  by decide

theorem test_jumpC :
    jumps 0x3A123#18 false true 0x123#12 = true ∧ jumps 0x3A123#18 true false 0x011#12 = true :=
  by decide

theorem test_jumpNC :
    jumps 0x3E123#18 true false 0x123#12 = true ∧ jumps 0x3E123#18 false true 0x011#12 = true :=
  by decide

theorem test_jumpAt_low_four_bits :
    runs 0x26120#18 (start [(0x1, 0xF7), (0x2, 0xBB)] false false) (fun t => t.pc == 0x7BB#12) = true :=
  by decide

theorem test_jump_not_taken_wraps :
    runs 0x32123#18 (startAt 0xFFF#12 false false []) (fun t => t.pc == 0x000#12) = true :=
  by decide

/-! ## Subroutines and HWBUILD (section 3.9) -/

theorem test_call : calls 0x20200#18 true false [] 0x200#12 [.call 0x123#12] = true := by decide

theorem test_callZ :
    calls 0x30200#18 true false [] 0x200#12 [.call 0x123#12] = true ∧
    calls 0x30200#18 false true [] 0x124#12 [] = true :=
  by decide

theorem test_callNZ :
    calls 0x34200#18 false true [] 0x200#12 [.call 0x123#12] = true ∧
    calls 0x34200#18 true false [] 0x124#12 [] = true :=
  by decide

theorem test_callC :
    calls 0x38200#18 false true [] 0x200#12 [.call 0x123#12] = true ∧
    calls 0x38200#18 true false [] 0x124#12 [] = true :=
  by decide

theorem test_callNC :
    calls 0x3C200#18 true false [] 0x200#12 [.call 0x123#12] = true ∧
    calls 0x3C200#18 false true [] 0x124#12 [] = true :=
  by decide

theorem test_callAt :
    runs 0x24120#18 { start [(0x1, 0xFA), (0x2, 0x59)] false false with pc := 0x3A4 } (fun t =>
      t.pc == 0xA59#12 && t.stack == [.call 0x3A4#12]) = true :=
  by decide

theorem test_call_thirtieth_level :
    runs 0x20200#18 (startAt 0x123#12 false false fullStack.tail) (fun t =>
      t.pc == 0x200#12 && t.stack.length == 30) = true :=
  by decide

theorem test_call_thirty_first_level :
    runs 0x20200#18 { startAt 0x123#12 false false fullStack with ie := true, bank := .B } (fun t =>
      t.pc == 0x000#12 && t.stack == [] && !t.ie && t.bank == .A && t.events == []) = true :=
  by decide

theorem test_call_not_taken_at_full_stack :
    calls 0x30200#18 false false fullStack 0x124#12 fullStack = true :=
  by decide

theorem test_ret :
    calls 0x25000#18 true false [.call 0x200#12, .call 0x050#12] 0x201#12 [.call 0x050#12] = true :=
  by decide

theorem test_ret_wraps : calls 0x25000#18 false false [.call 0xFFF#12] 0x000#12 [] = true := by decide

theorem test_retZ :
    calls 0x31000#18 true false [.call 0x200#12] 0x201#12 [] = true ∧
    calls 0x31000#18 false true [.call 0x200#12] 0x124#12 [.call 0x200#12] = true :=
  by decide

theorem test_retNZ :
    calls 0x35000#18 false true [.call 0x200#12] 0x201#12 [] = true ∧
    calls 0x35000#18 true false [.call 0x200#12] 0x124#12 [.call 0x200#12] = true :=
  by decide

theorem test_retC :
    calls 0x39000#18 false true [.call 0x200#12] 0x201#12 [] = true ∧
    calls 0x39000#18 true false [.call 0x200#12] 0x124#12 [.call 0x200#12] = true :=
  by decide

theorem test_retNC :
    calls 0x3D000#18 true false [.call 0x200#12] 0x201#12 [] = true ∧
    calls 0x3D000#18 false true [.call 0x200#12] 0x124#12 [.call 0x200#12] = true :=
  by decide

theorem test_loadReturn :
    runs 0x21148#18 (startAt 0x3A7#12 true false [.call 0x3C0#12]) (fun t =>
      t.x 0x1 == 0x48#8 && t.pc == 0x3C1#12 && t.stack == [] && t.z && !t.c) = true :=
  by decide

theorem test_returns_underflow :
    faults 0x25000#18 (startAt 0x200#12 false false []) .stackUnderflow = true ∧
    faults 0x31000#18 (startAt 0x200#12 true false []) .stackUnderflow = true ∧
    faults 0x21148#18 (startAt 0x200#12 false false []) .stackUnderflow = true ∧
    faults 0x29000#18 (startAt 0x200#12 false false []) .stackUnderflow = true ∧
    calls 0x31000#18 false false [] 0x124#12 [] = true :=
  by decide

theorem test_returns_frame_kind :
    faults 0x25000#18 (startAt 0x200#12 false false [.int 0x123#12 false false .A]) .frameKindMismatch = true ∧
    faults 0x21148#18 (startAt 0x200#12 false false [.int 0x123#12 false false .A]) .frameKindMismatch = true ∧
    faults 0x29001#18 (startAt 0x200#12 false false [.call 0x123#12]) .frameKindMismatch = true :=
  by decide

theorem test_hwbuild_zero : computes 0x14080#18 [(0x0, 0x55)] false false [(0x0, 0x00)] true true = true := by decide

theorem test_hwbuild_value :
    runs 0x14F80#18 { start [] true false with generics := { defaultGenerics with hwbuild := 0x41 } } (fun t =>
      t.x 0xF == 0x41#8 && !t.z && t.c) = true :=
  by decide

/-! ## Interrupt handling instructions (section 3.10) -/

theorem test_enableInterrupt :
    runs 0x28001#18 (start [] true true) (fun t => t.ie && t.z && t.c && t.pc == 0x001#12) = true :=
  by decide

theorem test_disableInterrupt :
    runs 0x28000#18 { start [] true true with ie := true } (fun t => !t.ie && t.z && t.c && t.pc == 0x001#12) = true :=
  by decide

theorem test_returniEnable :
    runs 0x29001#18 { startAt 0x200#12 false true [.int 0x123#12 true false .A, .call 0x050#12] with bank := .B } (fun t =>
      t.pc == 0x123#12 && t.z && !t.c && t.bank == .A && t.ie && t.stack == [.call 0x050#12]) = true :=
  by decide

theorem test_returniDisable :
    runs 0x29000#18 (startAt 0x200#12 true false [.int 0x123#12 false true .B]) (fun t =>
      t.pc == 0x123#12 && !t.z && t.c && t.bank == .B && !t.ie && t.stack == []) = true :=
  by decide

/-! ## One step of the machine (section 5) -/

/-- The state before every row of section 5: `ADD s0, 01` at 123, bank B, one frame, B.s0 = 10, Z = 1, C = 0. -/
def section5 (reset sleep irq ie : Bool) : State :=
  { (startAt 0x123#12 true false [.call 0x050#12]).setReg .B 0x0 0x10 with
    bank := .B, ie := ie, program := [(0x123, 0x11001#18)], pins := [⟨reset, sleep, irq⟩]
    generics := { defaultGenerics with interruptVector := 0xF80 } }

theorem test_step_reset_wins :
    steps (section5 true true true true) (fun t =>
      t.pc == 0x000#12 && !t.ie && t.bank == .A && t.stack == [] && t.events == []) = true :=
  by decide

theorem test_step_sleep_before_interrupt :
    steps (section5 false true true true) (fun t =>
      t.pc == 0x123#12 && t.ie && t.bank == .B && t.stack == [.call 0x050#12] && t.x 0x0 == 0x10#8 && t.z && !t.c &&
      t.events == []) = true :=
  by decide

theorem test_step_interrupt_entry :
    steps (section5 false false true true) (fun t =>
      t.pc == 0xF80#12 && !t.ie && t.bank == .B && t.stack == [.int 0x123#12 true false .B, .call 0x050#12] &&
      t.z && !t.c && t.x 0x0 == 0x10#8 && t.events == [.intAck]) = true :=
  by decide

theorem test_step_interrupt_masked :
    steps (section5 false false true false) (fun t =>
      t.pc == 0x124#12 && !t.ie && t.x 0x0 == 0x11#8 && !t.z && !t.c && t.events == []) = true :=
  by decide

theorem test_step_interrupt_at_full_stack :
    steps { section5 false false true true with stack := fullStack } (fun t =>
      t.pc == 0x000#12 && !t.ie && t.bank == .A && t.stack == [] && t.events == []) = true :=
  by decide

theorem test_step_reserved_word :
    stepFaults { section5 false false false false with program := [(0x123, 0x15000#18)] }
      (.reservedInstruction .unlistedOpcode) = true :=
  by decide

theorem test_step_fetch_outside :
    stepFaults { startAt 0x400#12 false false [] with generics := { defaultGenerics with programMemorySize := 1024 } }
      .fetchOutsideProgramMemory = true :=
  by decide

theorem test_step_placed_word :
    steps (State.reset.withFetchWord 24 0x01A8E) (fun t => t.x 0xA == 0x8E#8 && t.pc == 0x001#12) = true :=
  by decide

/-- Section 7: `LOAD s0, s0` takes 2 clock cycles. -/
theorem test_step_two_cycles :
    steps (State.reset.withFetchWord 24 0x00000) (fun t => t.cycles == 2 && t.pc == 0x001#12) = true :=
  by decide

/-! ## The assembler (30_encoding.md section 6; E1, E20, E23, E32) -/

/-- No directives. -/
def bare : Asm.Symbols := ⟨[], [], [], []⟩

/-- The directives and the label the examples of E20, E21 and E32 use. -/
def named : Asm.Symbols :=
  ⟨[("token", 0x61), ("control_port", 0x0A)], [("setup0", 0xA49)], [("counter", 0x7)], [("hi$", [0x48, 0x69])]⟩

theorem test_constant_forms :
    Asm.readConstant "8E".toList = some 0x8E ∧ Asm.readConstant "42'd".toList = some 0x2A ∧
    Asm.readConstant "01000000'b".toList = some 0x40 ∧ Asm.readConstant "\"k\"".toList = some 0x6B ∧
    Asm.readConstant "G0".toList = none ∧ Asm.readConstant "".toList = none :=
  by decide

/-- E20: four spellings of one instruction. -/
theorem test_outputk_forms_are_one :
    let p := Asm.Operand.value (.text "A".toList)
    let same := some (Instr.outputK 0x61 0xA)
    Asm.assemble named .outputk [.value (.text "61".toList), p] = same ∧
    Asm.assemble named .outputk [.value (.text "97'd".toList), .value (.text "10'd".toList)] = same ∧
    Asm.assemble named .outputk [.value (.text "\"a\"".toList), p] = same ∧
    Asm.assemble named .outputk [.value (.name "token"), .value (.name "control_port")] = same :=
  by decide

/-- E32: `LOAD sB, setup0'upper` and `LOAD sA, setup0'lower` with setup0 at A49. -/
theorem test_label_halves :
    Asm.assemble named .load [Asm.plainReg 0xB, .value (.upper "setup0")] = some (.loadRK 0xB 0x0A) ∧
    Asm.assemble named .load [Asm.plainReg 0xA, .value (.lower "setup0")] = some (.loadRK 0xA 0x49) :=
  by decide

/-- R92. -/
theorem test_star_needs_default_name :
    Asm.assemble named .star [.reg (.renamed "counter"), Asm.plainReg 0x1] = none ∧
    Asm.assemble named .star [Asm.plainReg 0x7, .reg (.renamed "counter")] = some (.star 0x7 0x7) :=
  by decide

theorem test_too_wide_refused :
    Asm.assemble bare .load [Asm.plainReg 0x0, Asm.plainValue 3 0x100] = none ∧
    Asm.assemble bare .outputk [Asm.plainValue 2 0x00, Asm.plainValue 2 0x10] = none :=
  by decide

/-- R91. -/
theorem test_string_expansion :
    Asm.assembleLine named .outputk [.string "hi$", Asm.plainValue 1 0x8] =
      some [.outputK 0x48 0x8, .outputK 0x69 0x8] :=
  by decide

/-- R93, E32: printed lines (the label of the second is the test's). -/
theorem test_log_line :
    (Asm.logLine { named with labels := [("warm_start", 0x02B)] } 0x32C#12 none .jump [.value (.label "warm_start")]) =
      some "32C  2202B  JUMP 02B[warm_start]".toList ∧
    Asm.logLine bare 0xA4C#12 (some "x") .load [Asm.plainReg 0x6, .value (.text "172'd".toList)] =
      some "A4C  016AC  x: LOAD s6, AC[172'd]".toList :=
  by decide

/-- R91: the form `OUTPUTK 48[hw_intro$:"H"], 8`. -/
theorem test_log_string :
    (Asm.stringCopies named .outputk [.string "hi$", Asm.plainValue 1 0x8]).map
      (fun l => l.filterMap (Asm.logLine named 0x000#12 none .outputk)) =
    some ["000  2B488  OUTPUTK 48[hi$:\"H\"], 8".toList, "000  2B698  OUTPUTK 69[hi$:\"i\"], 8".toList] :=
  by decide

/-- R88: the characters of code 22 and 3B, before a comma and before a comment. -/
theorem test_quote_character :
    Asm.assembleText ["OUTPUTK \"\"\", A", "LOAD s0, \"\"\" ; x", "LOAD s1, \";\" ; y"] =
    some [(0x000#12, 0x2B22A#18), (0x001#12, 0x01022#18), (0x002#12, 0x0113B#18)] :=
  by decide

/-- R93: the comment line as printed. -/
theorem test_log_comment_line :
    Asm.logText ["ADDRESS A51", ";", "JUMP 02B ; back"] =
    some ["A51                  ;".toList, "A51  2202B  JUMP 02B".toList] :=
  by decide

/-- R89: `LOAD sB, 07[menu'upper]` for menu at 7BB, here by a CONSTANT's name. -/
theorem test_constant_from_label :
    Asm.assembleText ["CONSTANT top, menu'upper", "ADDRESS 7BB", "menu: LOAD sB, top"] = some [(0x7BB#12, 0x01B07#18)] :=
  by decide

/-- P6's loop, at its addresses, with its words. -/
theorem test_text_of_E22 :
    Asm.assembleText ["CONSTANT buffer_start, 30 ; E22", "ADDRESS 003", "LOAD s1, buffer_start",
      "read8: INPUT s0, 01", "STORE s0, (s1)", "ADD s1, 01", "COMPARE s1, 38", ";", "JUMP NZ, read8"] =
    some [(0x003#12, 0x01130#18), (0x004#12, 0x09001#18), (0x005#12, 0x2E010#18), (0x006#12, 0x11101#18),
      (0x007#12, 0x1D138#18), (0x008#12, 0x36004#18)] :=
  by decide

/-- R87 to R91, with E21's words for `H` and `a`. -/
theorem test_text_of_strings :
    Asm.assembleText ["STRING hi$, \"Ha\"", "CONSTANT port, 08", "go: OUTPUTK hi$, port", "LOAD sB, go'upper",
      "CALL@ (sB, sA)", "RETURNI ENABLE", "RETURN NC", "LOAD&RETURN s1, \";\""] =
    some [(0x000#12, 0x2B488#18), (0x001#12, 0x2B618#18), (0x002#12, 0x01B00#18), (0x003#12, 0x24BA0#18),
      (0x004#12, 0x29001#18), (0x005#12, 0x3D000#18), (0x006#12, 0x2113B#18)] :=
  by decide

/-- R90: for the text that follows. -/
theorem test_namereg_holds_after :
    (Asm.assembleFile [⟨none, .namereg (.default 0x7) "n"⟩, ⟨none, .instr .rl [.reg (.renamed "n")]⟩]).map (List.map Prod.snd) =
      some [0x14702#18] ∧
    Asm.assembleFile [⟨none, .instr .rl [.reg (.renamed "n")]⟩, ⟨none, .namereg (.default 0x7) "n"⟩] = none :=
  by decide

/-- R89, R90: a label names the address of its line; ADDRESS moves the next one. -/
theorem test_file_labels :
    Asm.assembleFile [⟨none, .address 0x010⟩, ⟨some "loop", .instr .rl [Asm.plainReg 0x6]⟩,
      ⟨none, .instr .jump [.value (.label "loop")]⟩] = some [(0x010#12, 0x14602#18), (0x011#12, 0x22010#18)] :=
  by decide

/-! ## Witnesses: the hypotheses of the statements can be met, each clause at a boundary value -/

/-- A quiet boundary and a program of one word at 000. -/
def programmed (w : IWord) : State := { start [] true false with program := Memory.write [] 0 w }

theorem witness_EncodeInvertsDecode : decode 0x3EFFF#18 = .instr (.jumpNC 0xFFF) := by decide

theorem witness_NoWordMatchesTwoRows :
    (⟨"SLA_sX", 0x14000#18, 0x3F0FF#18⟩ : Row) ∈ opcodeTable ∧
      (⟨"SLA_sX", 0x14000#18, 0x3F0FF#18⟩ : Row).matches 0x14F00#18 = true := by decide

theorem witness_ReservedWordsRejectedByClass :
    ((0x1#4 : BitVec 4) ≠ 0x0#4 ∧ (0xF#4 : BitVec 4) ≠ 0x0#4) ∧
    (0x01#8 ∉ [0x00#8, 0x02#8, 0x04#8, 0x06#8, 0x07#8, 0x08#8, 0x0A#8, 0x0C#8, 0x0E#8, 0x0F#8, 0x80#8] ∧
      0xFF#8 ∉ [0x00#8, 0x02#8, 0x04#8, 0x06#8, 0x07#8, 0x08#8, 0x0A#8, 0x0C#8, 0x0E#8, 0x0F#8, 0x80#8]) ∧
    (0x001#12 : ProgAddr) ≠ 0x000#12 ∧
    ((0x002#12 : ProgAddr) ≠ 0x000#12 ∧ (0x002#12 : ProgAddr) ≠ 0x001#12) := by decide

theorem witness_Undisturbed : (programmed 0x00000#18).Undisturbed := ⟨rfl, rfl, rfl, .inl rfl⟩

theorem witness_StepRunsDecodedInstruction :
    (programmed 0x3EFFF#18).Undisturbed ∧ (programmed 0x3EFFF#18).progRead (programmed 0x3EFFF#18).pc = some 0x3EFFF#18 ∧
      decode 0x3EFFF#18 = .instr (.jumpNC 0xFFF) :=
  ⟨⟨rfl, rfl, rfl, .inl rfl⟩, by decide, by decide⟩

theorem witness_PlacedWordRunsNext :
    Memory.wf State.reset.program = true ∧ decodeTableWord 18 0x3EFFF = some (.jumpNC 0xFFF) := by decide

/-- The premise inside `GoesOn`, at the last address it covers. -/
theorem witness_GoesOn : (startAt 0xFFE#12 false false []).pc ≠ 0xFFF#12 := by decide

theorem witness_MultiByteArithmeticOnRegisters :
    ([(0x0, .reg 0x8), (0x1, .const 0x09), (0x2, .reg 0xA)] : List (RegNum × Operand)).Pairwise
      (fun q q' => q.1 ≠ q'.1 ∧ q'.2 ≠ .reg q.1) := by decide

theorem witness_InputCapturesPresentedByte : (start [] false false).inputs = [] ∧
    ({ start [] false false with inputs := [0x5E] } : State).inputs = 0x5E :: [] := ⟨rfl, rfl⟩

theorem witness_StoreWritesOneLocation : Memory.wf ({ start [] false false with spm := [(0x3F, 0xD2)] } : State).spm = true := by
  decide

/-- One location that aliases to the one stored and one that does not. -/
theorem witness_FetchAfterStore : Memory.wf (start [] false false).spm = true ∧
    (0x7F#8).toNat % 64 = (0x3F#8).toNat % 64 ∧ (0x40#8).toNat % 64 ≠ (0x3F#8).toNat % 64 := by decide

theorem witness_ReturniRestoresFrame :
    (startAt 0x200#12 false true [.int 0xFFF#12 true false .A]).stack = .int 0xFFF#12 true false .A :: [] := rfl

theorem witness_CallsPushTheirAddress : (startAt 0x123#12 true true fullStack.tail).stack.length < 30 ∧
    (startAt 0x123#12 true true fullStack.tail).z = true ∧ (startAt 0x123#12 true true fullStack.tail).c = true ∧
    (startAt 0x123#12 false false fullStack.tail).stack.length < 30 ∧
    (startAt 0x123#12 false false fullStack.tail).z = false ∧
    (startAt 0x123#12 false false fullStack.tail).c = false := by decide

theorem witness_CallAtFullStackResets : 30 ≤ (startAt 0x123#12 true true fullStack).stack.length ∧
    (startAt 0x123#12 true true fullStack).z = true ∧ (startAt 0x123#12 true true fullStack).c = true ∧
    30 ≤ (startAt 0x123#12 false false fullStack).stack.length ∧
    (startAt 0x123#12 false false fullStack).z = false ∧ (startAt 0x123#12 false false fullStack).c = false := by decide

theorem witness_ReturnsGoAfterTheirCall : (startAt 0x200#12 true true [.call 0xFFF#12]).stack = .call 0xFFF#12 :: [] ∧
    (startAt 0x200#12 true true [.call 0xFFF#12]).z = true ∧ (startAt 0x200#12 true true [.call 0xFFF#12]).c = true ∧
    (startAt 0x200#12 false false [.call 0xFFF#12]).stack = .call 0xFFF#12 :: [] ∧
    (startAt 0x200#12 false false [.call 0xFFF#12]).z = false ∧
    (startAt 0x200#12 false false [.call 0xFFF#12]).c = false := ⟨rfl, rfl, rfl, rfl, rfl, rfl⟩

theorem witness_LoadAndReturnDoesBoth : (startAt 0x3A7#12 true false [.call 0x3C0#12]).stack = .call 0x3C0#12 :: [] := rfl

theorem witness_ReturnsFaultWithoutTheirFrame : (startAt 0x200#12 true true []).stack = [] ∧
    (startAt 0x200#12 true true []).z = true ∧ (startAt 0x200#12 true true []).c = true ∧
    (startAt 0x200#12 false false []).stack = [] ∧ (startAt 0x200#12 false false []).z = false ∧
    (startAt 0x200#12 false false []).c = false ∧
    (startAt 0x200#12 false false [.int 0x123#12 false false .A]).stack = .int 0x123#12 false false .A :: [] ∧
    (startAt 0x200#12 false false [.int 0x123#12 false false .A]).z = false ∧
    (startAt 0x200#12 false false [.int 0x123#12 false false .A]).c = false ∧
    (startAt 0x200#12 true true [.int 0x123#12 false false .A]).stack = .int 0x123#12 false false .A :: [] ∧
    (startAt 0x200#12 true true [.int 0x123#12 false false .A]).z = true ∧
    (startAt 0x200#12 true true [.int 0x123#12 false false .A]).c = true ∧
    (startAt 0x200#12 true true [.call 0x123#12]).stack = .call 0x123#12 :: [] :=
  ⟨rfl, rfl, rfl, rfl, rfl, rfl, rfl, rfl, rfl, rfl, rfl, rfl, rfl⟩

/-- At the deepest level a CALL still completes at, with a later state whose stack is as the CALL left it. -/
theorem witness_ReturnMatchesCall : (startAt 0x123#12 false false fullStack.tail).stack.length < 30 ∧
    exec (.call 0x200) (startAt 0x123#12 false false fullStack.tail) =
      .next ((startAt 0x123#12 false false fullStack.tail).enterSubroutine 0x200) ∧
    ((startAt 0x123#12 false false fullStack.tail).enterSubroutine 0x200).stack = .call 0x123#12 :: fullStack.tail := by
  refine ⟨by decide, rfl, by decide⟩

theorem witness_OnlyReturnsCanFault : runs 0x00000#18 (start [] false false) (fun _ => true) = true ∧
    faults 0x25000#18 (startAt 0x200#12 false false []) .stackUnderflow = true ∧
    faults 0x25000#18 (startAt 0x200#12 false false [.int 0x123#12 false false .A]) .frameKindMismatch = true ∧
    faults 0x29001#18 (startAt 0x200#12 false false [.call 0x123#12]) .frameKindMismatch = true := by decide

/-- An instruction in sequence, and each conditional transfer that is not taken, at 0xFFF. -/
theorem witness_SequentialInstructionsAdvance :
    (Instr.loadRK 0x0 0x00).isTransfer = false ∧
    (∃ t, exec (.loadRK 0x0 0x00) (startAt 0xFFF#12 false false []) = .next t) ∧
    (∀ i ∈ [Instr.jumpZ 0x123, .callZ 0x123, .retZ, .jumpC 0x123, .callC 0x123, .retC],
      exec i (startAt 0xFFF#12 false false []) = .next (startAt 0xFFF#12 false false []).advance) ∧
    (∀ i ∈ [Instr.jumpNZ 0x123, .callNZ 0x123, .retNZ, .jumpNC 0x123, .callNC 0x123, .retNC],
      exec i (startAt 0xFFF#12 true true []) = .next (startAt 0xFFF#12 true true []).advance) := by
  refine ⟨rfl, ⟨_, rfl⟩, ?_, ?_⟩ <;> · simp only [List.forall_mem_cons]; exact ⟨rfl, rfl, rfl, rfl, rfl, rfl, nofun⟩

/-- A CALL at the deepest level it completes at, which writes no flag, no scratch pad location and no register. -/
theorem witness_FlagsWrittenOnlyByTable : (Instr.call 0x200).writesFlags = false ∧
    ((Instr.call 0x200).isCall = true → (startAt 0x123#12 true true fullStack.tail).stack.length < 30) ∧
    ∃ t, exec (.call 0x200) (startAt 0x123#12 true true fullStack.tail) = .next t :=
  ⟨rfl, fun _ => by decide, _, rfl⟩

theorem witness_ControlStateWrittenOnlyByItsInstructions :
    ((Instr.addRK 0x0 0x01).isCall = true → (section5 false false false true).stack.length < 30) ∧
    (∃ t, exec (.addRK 0x0 0x01) (section5 false false false true) = .next t) ∧
    (Instr.addRK 0x0 0x01).writesIE = false ∧ (Instr.addRK 0x0 0x01).writesBank = false ∧
    (Instr.addRK 0x0 0x01).isCall = false ∧ (Instr.addRK 0x0 0x01).popsCall = false ∧
    (Instr.addRK 0x0 0x01).popsInt = false :=
  ⟨nofun, ⟨_, rfl⟩, rfl, rfl, rfl, rfl, rfl⟩

theorem witness_ScratchPadWrittenOnlyByStore : (Instr.call 0x200).storesToScratchPad = false ∧
    ((Instr.call 0x200).isCall = true → (startAt 0x123#12 true true fullStack.tail).stack.length < 30) ∧
    ∃ t, exec (.call 0x200) (startAt 0x123#12 true true fullStack.tail) = .next t :=
  ⟨rfl, fun _ => by decide, _, rfl⟩

theorem witness_InactiveBankWrittenOnlyByStar : (∀ x y, Instr.addRK 0x0 0x01 ≠ .star x y) ∧
    ((Instr.addRK 0x0 0x01).isCall = true → (section5 false false false true).stack.length < 30) ∧
    ∃ t, exec (.addRK 0x0 0x01) (section5 false false false true) = .next t :=
  ⟨nofun, nofun, _, rfl⟩

/-- Two states that differ, and only in a register of the inactive bank. -/
theorem witness_InactiveBankIsNotRead :
    SameButInactiveBank (start [] true false) ((start [] true false).setReg .B 0x0 0x34) ∧
      ((Instr.call 0x200).isCall = true → (start [] true false).stack.length < 30) ∧
      (start [] true false).reg .B 0x0 ≠ ((start [] true false).setReg .B 0x0 0x34).reg .B 0x0 := by
  refine ⟨⟨rfl, fun r => rfl, rfl, rfl, rfl, rfl, rfl, rfl, rfl, rfl, rfl, rfl, rfl, rfl, rfl, rfl, rfl⟩, by decide, by decide⟩

theorem witness_OneEventPerPortAccess : (Instr.outputK 0x61 0xA).isPortAccess = true ∧
    (∃ t, exec (.outputK 0x61 0xA) (start [] false false) = .next t) ∧ (Instr.call 0x200).isPortAccess = false ∧
    ∃ t, exec (.call 0x200) (startAt 0x123#12 false false fullStack) = .next t :=
  ⟨rfl, ⟨_, rfl⟩, rfl, _, rfl⟩

theorem witness_EveryInstructionTakesTwoCycles :
    ((Instr.call 0x200).isCall = true → (startAt 0x123#12 true true fullStack.tail).stack.length < 30) ∧
    ∃ t, exec (.call 0x200) (startAt 0x123#12 true true fullStack.tail) = .next t :=
  ⟨fun _ => by decide, _, rfl⟩

theorem witness_ResetPinWins : (section5 true true true true).generics.legal = true ∧
    (section5 true true true true).levels.reset = true := by decide

theorem witness_SleepChangesNothing : (section5 false true true true).generics.legal = true ∧
    (section5 false true true true).levels.reset = false ∧ (section5 false true true true).levels.sleep = true := by decide

/-- An interrupt about to be taken, with a stack. -/
def interrupted (stack : List Frame) : State := { section5 false false true true with stack := stack }

/-- At the deepest level an interrupt is entered at. -/
theorem witness_InterruptEntryAsDescribed : (interrupted fullStack.tail).generics.legal = true ∧
    (interrupted fullStack.tail).levels.reset = false ∧ (interrupted fullStack.tail).levels.sleep = false ∧
    (interrupted fullStack.tail).ie = true ∧ (interrupted fullStack.tail).levels.interrupt = true ∧
    (interrupted fullStack.tail).stack.length < 30 := by decide

theorem witness_InterruptAtFullStackResets : (interrupted fullStack).generics.legal = true ∧
    (interrupted fullStack).levels.reset = false ∧ (interrupted fullStack).levels.sleep = false ∧
    (interrupted fullStack).ie = true ∧ (interrupted fullStack).levels.interrupt = true ∧
    30 ≤ (interrupted fullStack).stack.length := by decide

theorem witness_ReturniUndoesInterruptEntry : (interrupted fullStack.tail).stack.length < 30 ∧
    (startAt 0xF90#12 false true (.int 0x123#12 true false .B :: fullStack.tail)).stack =
      (interrupted fullStack.tail).enterInterrupt.stack := by decide

theorem witness_EveryStepKeepsInvariant : State.Inv (programmed 0x20200#18) ∧
    steps (programmed 0x20200#18) (fun _ => true) = true :=
  ⟨⟨by decide, by decide, by decide, by decide⟩, by decide⟩

theorem witness_ProgramAndGenericsAreConstant : steps (programmed 0x20200#18) (fun _ => true) = true := by decide

/-- Each way a step completes or stops, at the first address that does not exist among them. -/
theorem witness_StepStopsOnlyOnUndefined : steps (programmed 0x20200#18) (fun _ => true) = true ∧
    stepFaults { startAt 0x400#12 false false [] with generics := { defaultGenerics with programMemorySize := 1024 } }
      .fetchOutsideProgramMemory = true ∧
    stepFaults (programmed 0x00001#18) (.reservedInstruction .lowDigit) = true ∧
    stepFaults (programmed 0x25000#18) .stackUnderflow = true ∧
    stepFaults { programmed 0x25000#18 with stack := [.int 0x123#12 false false .A] } .frameKindMismatch = true ∧
    stepFaults { programmed 0x29001#18 with stack := [.call 0x123#12] } .frameKindMismatch = true := by decide

theorem witness_SequenceLeftOnlyAsListed : steps (programmed 0x00000#18) (fun t => t.pc == 0x001#12) = true ∧
    steps (section5 true false false false) (fun t => t.pc == 0x000#12) = true ∧
    steps (section5 false true false false) (fun t => t.pc == 0x123#12) = true ∧
    steps (section5 false false true true) (fun t => t.pc == 0xF80#12) = true ∧
    steps (programmed 0x20200#18) (fun t => t.pc == 0x200#12) = true := by decide

theorem witness_EndedRunStays : (programmed 0x22000#18).ended = true ∧ (programmed 0x22000#18).Undisturbed :=
  ⟨by decide, rfl, rfl, rfl, .inl rfl⟩

theorem witness_StringExpandsPerCharacter : named.strings.lookup "hi$" = some [0x48, 0x69] := by decide

end Sys2Proof.Tests
end

section
/-! PROOFS. No step changes the program or a generic (00_scope.md R6, 20_memory.md R52, R67). An instruction that completes
does so by one of the shared operations of the model (`Effect`); each of them, and every other thing a step can do, leaves the
generics, the program, the pins and the step boundary as sampling the pins left them. -/

namespace Sys2Proof.Machine

/-! ## The ways an instruction ends -/

/-- `Effect s t`: one of the shared operations that end an instruction leads from `s` to `t`; `exec_effect` ties it to `exec`. -/
inductive Effect (s : State) : State → Prop
  | finish (x : RegNum) (r : Result) : Effect s (s.finish x r)
  | finishFlags (r : Result) : Effect s (s.finishFlags r)
  | setReg (b : Bank) (x : RegNum) (v : Byte) : Effect s (s.setReg b x v).advance
  | setIE (ie : Bool) : Effect s (s.setIE ie).advance
  | setBank (b : Bank) : Effect s (s.setBank b).advance
  | inputFrom (x : RegNum) (p : Byte) : Effect s (s.inputFrom x p)
  | emit (e : Event) : Effect s (s.emit e).advance
  | memWrite (a v : Byte) : Effect s (s.memWrite a v).advance
  | goto (target : ProgAddr) : Effect s (s.goto target)
  | enterSubroutine (target : ProgAddr) : Effect s (s.enterSubroutine target)
  | ret (addr : ProgAddr) (rest : List Frame) (hstack : s.stack = .call addr :: rest) :
      Effect s (({ s with stack := rest } : State).goto (addr + 1#12))
  | loadReturn (x : RegNum) (kk : Byte) (addr : ProgAddr) (rest : List Frame) (hstack : s.stack = .call addr :: rest) :
      Effect s ((({ s with stack := rest } : State).setX x kk).goto (addr + 1#12))
  | returni (ie : Bool) (addr : ProgAddr) (z c : Bool) (b : Bank) (rest : List Frame)
      (hstack : s.stack = .int addr z c b :: rest) :
      Effect s (({ s with stack := rest, z := z, c := c, bank := b, ie := ie } : State).goto addr)

/-- A return from a subroutine completes only on a CALL's frame. -/
theorem State.returnFromSubroutine_next {s t : State} {load : State → State}
    (h : s.returnFromSubroutine load = .next t) :
    ∃ addr rest, s.stack = .call addr :: rest ∧ t = (load { s with stack := rest }).goto (addr + 1#12) := by
  obtain ⟨addr, rest, hstack, ho⟩ | ⟨-, ho⟩ | ⟨_, _, _, _, _, -, ho⟩ := s.returnFromSubroutine_cases load
  · exact ⟨addr, rest, hstack, Host.Outcome.next.inj (h.symm.trans ho)⟩
  · cases h.symm.trans ho
  · cases h.symm.trans ho

theorem Effect.of_returnFromSubroutine {s t : State} (h : s.returnFromSubroutine id = .next t) : Effect s t := by
  obtain ⟨addr, rest, hstack, rfl⟩ := State.returnFromSubroutine_next h
  exact .ret addr rest hstack

theorem Effect.of_returnFromInterrupt {s t : State} {ie : Bool} (h : s.returnFromInterrupt ie = .next t) :
    Effect s t := by
  obtain ⟨addr, z, c, b, rest, hstack, ho⟩ | ⟨-, ho⟩ | ⟨_, _, -, ho⟩ := s.returnFromInterrupt_cases ie
  · cases h.symm.trans ho
    exact .returni ie addr z c b rest hstack
  · cases h.symm.trans ho
  · cases h.symm.trans ho

/-- A conditional transfer ends as the transfer does, or goes on. -/
theorem Effect.of_when {s t : State} {k : Cond} {o : Host.Outcome State Fault Refusal} (h : s.when k o = .next t)
    (taken : o = .next t → Effect s t) : Effect s t := by
  cases hk : k.holds s with
  | true => exact taken (s.when_true k o hk ▸ h)
  | false =>
    cases (s.when_false k o hk).symm.trans h
    exact .goto _

/-- Everything an instruction that completes can do. -/
theorem exec_effect {i : Instr} {s t : State} (h : exec i s = .next t) : Effect s t := by
  cases i with
  | andRR | andRK | orRR | orRK | xorRR | xorRK | addRR | addRK | addcyRR | addcyRK | subRR | subRK | subcyRR | subcyRK
  | sl0 | sl1 | slx | sla | rl | sr0 | sr1 | srx | sra | rr | hwbuild => cases h; exact .finish _ _
  | testRR | testRK | testcyRR | testcyRK | compareRR | compareRK | comparecyRR | comparecyRK =>
    cases h; exact .finishFlags _
  | loadRR | loadRK | star | fetchRR | fetchRK => cases h; exact .setReg _ _ _
  | disableInterrupt | enableInterrupt => cases h; exact .setIE _
  | regbankA | regbankB => cases h; exact .setBank _
  | inputRR | inputRK => cases h; exact .inputFrom _ _
  | outputRR | outputRK | outputK => cases h; exact .emit _
  | storeRR | storeRK => cases h; exact .memWrite _ _
  | jump | jumpAt => cases h; exact .goto _
  | jumpZ | jumpNZ | jumpC | jumpNC => exact .of_when h fun taken => by cases taken; exact .goto _
  | call | callAt => cases h; exact .enterSubroutine _
  | callZ | callNZ | callC | callNC => exact .of_when h fun taken => by cases taken; exact .enterSubroutine _
  | ret => exact .of_returnFromSubroutine h
  | retZ | retNZ | retC | retNC => exact .of_when h .of_returnFromSubroutine
  | loadReturn x kk =>
    obtain ⟨addr, rest, hstack, rfl⟩ := State.returnFromSubroutine_next h
    exact .loadReturn x kk addr rest hstack
  | returniDisable | returniEnable => exact .of_returnFromInterrupt h

/-! ## What no instruction and no reset changes -/

theorem State.takeReset_sameSurroundings (s : State) : SameSurroundings s s.takeReset :=
  ⟨s.takeReset_generics, s.takeReset_program, s.takeReset_pins, s.takeReset_boundary⟩

/-- The internal reset differs from the reset input in a counter only (60_exceptions.md R268). -/
theorem State.overflowReset_sameSurroundings (s : State) : SameSurroundings s s.overflowReset :=
  s.takeReset_sameSurroundings

theorem State.enterSubroutine_sameSurroundings (s : State) (target : ProgAddr) :
    SameSurroundings s (s.enterSubroutine target) := by
  by_cases hroom : s.stack.length < stackLevels
  · rw [s.enterSubroutine_below target hroom]
    simp [SameSurroundings]
  · rw [s.enterSubroutine_full target hroom]
    exact s.overflowReset_sameSurroundings

theorem State.enterInterrupt_sameSurroundings (s : State) : SameSurroundings s s.enterInterrupt := by
  by_cases hroom : s.stack.length < stackLevels
  · rw [s.enterInterrupt_below hroom]
    simp [SameSurroundings]
  · rw [s.enterInterrupt_full hroom]
    exact s.overflowReset_sameSurroundings

/-- Only a CALL needs an argument, since it may reset the machine; the other operations write fields of their own. -/
theorem Effect.sameSurroundings {s t : State} (h : Effect s t) : SameSurroundings s t := by
  cases h with
  | enterSubroutine target => exact s.enterSubroutine_sameSurroundings target
  | finish | finishFlags | setReg | setIE | setBank | inputFrom | emit | memWrite | goto | ret | loadReturn | returni =>
    exact ⟨rfl, rfl, rfl, rfl⟩

theorem State.runInstruction_sameSurroundings {s t : State} (h : s.runInstruction = .next t) :
    SameSurroundings s t := by
  obtain ⟨-, ho⟩ | ⟨_, _, -, -, ho⟩ | ⟨_, i, -, -, ho⟩ := s.runInstruction_cases
  · cases h.symm.trans ho
  · cases h.symm.trans ho
  · exact (exec_effect (ho.symm.trans h)).sameSurroundings

/-! ## One step -/

/-- A step completes in an accepted configuration only (93 M4). -/
theorem step_legal {s t : State} (h : step s = .next t) : s.generics.legal = true := by
  by_contra hlegal
  cases h.symm.trans (step_illegal s (Bool.eq_false_of_not_eq_true hlegal))

/-- Whatever a step does, it changes the surroundings as sampling the pins does and no further (60_exceptions.md R259). -/
theorem step_sameSurroundings {s t : State} (h : step s = .next t) : SameSurroundings s.passBoundary t := by
  obtain ⟨-, ho⟩ | ⟨-, -, ho⟩ | ⟨-, -, -, -, ho⟩ | ⟨-, ho⟩ := step_cases s (step_legal h)
  · cases h.symm.trans ho
    exact s.passBoundary.takeReset_sameSurroundings
  · cases h.symm.trans ho
    exact ⟨rfl, rfl, rfl, rfl⟩
  · cases h.symm.trans ho
    exact s.passBoundary.enterInterrupt_sameSurroundings
  · exact State.runInstruction_sameSurroundings (ho.symm.trans h)

/-- Settles O55: a step keeps the surroundings that passing the boundary leaves, and that keeps both. -/
theorem programAndGenericsAreConstant : Obligations.ProgramAndGenericsAreConstant := by
  intro s t h
  obtain ⟨hgenerics, hprogram, -, -⟩ := step_sameSurroundings h
  exact ⟨hprogram.trans s.passBoundary_program, hgenerics.trans s.passBoundary_generics⟩

end Sys2Proof.Machine
end

section
/-! PROOFS. Who writes what (10_state.md R22 to R34), and the invariant of every step. `EffectOf` says which of the shared
operations an instruction can end by: an operation that writes the flags, `IE`, `bank`, the stack, the scratch pad or the
inactive bank asks for an instruction of the class that may write it, so an instruction outside that class leaves it alone. -/

namespace Sys2Proof

theorem Bank.other_ne (b : Bank) : b.other ≠ b := by cases b <;> decide

/-- A RETURNI is in every class whose state an interrupt's frame restores (47_interrupt_handling.md R198, R199). -/
theorem Instr.writes_of_popsInt {i : Instr} (h : i.popsInt = true) :
    i.writesFlags = true ∧ i.writesIE = true ∧ i.writesBank = true := by
  cases i with
  | returniDisable | returniEnable => exact ⟨rfl, rfl, rfl⟩
  | _ => cases h

end Sys2Proof

namespace Sys2Proof.Machine

/-! ## Which operations an instruction can end by -/

/-- `EffectOf i s t`: `Effect s t` by an operation that instruction `i` is of the class to end by; `exec_effectOf` ties it to
`exec`. -/
inductive EffectOf (i : Instr) (s : State) : State → Prop
  | finish (x : RegNum) (r : Result) (hi : i.writesFlags = true) : EffectOf i s (s.finish x r)
  | finishFlags (r : Result) (hi : i.writesFlags = true) : EffectOf i s (s.finishFlags r)
  | setX (x : RegNum) (v : Byte) : EffectOf i s (s.setX x v).advance
  | setAlt (x y : RegNum) (hi : i = .star x y) : EffectOf i s (s.setAlt x (s.x y)).advance
  | setIE (ie : Bool) (hi : i.writesIE = true) : EffectOf i s (s.setIE ie).advance
  | setBank (b : Bank) (hi : i.writesBank = true) : EffectOf i s (s.setBank b).advance
  | inputFrom (x : RegNum) (p : Byte) (hi : i.isPortAccess = true) : EffectOf i s (s.inputFrom x p)
  | emit (e : Event) (hi : i.isPortAccess = true) : EffectOf i s (s.emit e).advance
  | memWrite (a v : Byte) (hi : i.storesToScratchPad = true) : EffectOf i s (s.memWrite a v).advance
  | goto (target : ProgAddr) (hi : i.isTransfer = true) : EffectOf i s (s.goto target)
  | enterSubroutine (target : ProgAddr) (hi : i.isCall = true) : EffectOf i s (s.enterSubroutine target)
  | ret (addr : ProgAddr) (rest : List Frame) (hi : i.popsCall = true) (hstack : s.stack = .call addr :: rest) :
      EffectOf i s (({ s with stack := rest } : State).goto (addr + 1#12))
  | loadReturn (x : RegNum) (kk : Byte) (addr : ProgAddr) (rest : List Frame) (hi : i.popsCall = true)
      (hstack : s.stack = .call addr :: rest) :
      EffectOf i s ((({ s with stack := rest } : State).setX x kk).goto (addr + 1#12))
  | returni (ie : Bool) (addr : ProgAddr) (z c : Bool) (b : Bank) (rest : List Frame) (hi : i.popsInt = true)
      (hstack : s.stack = .int addr z c b :: rest) :
      EffectOf i s (({ s with stack := rest, z := z, c := c, bank := b, ie := ie } : State).goto addr)

theorem EffectOf.of_returnFromSubroutine {i : Instr} {s t : State} (hi : i.popsCall = true)
    (h : s.returnFromSubroutine id = .next t) : EffectOf i s t := by
  obtain ⟨addr, rest, hstack, rfl⟩ := State.returnFromSubroutine_next h
  exact .ret addr rest hi hstack

theorem EffectOf.of_returnFromInterrupt {i : Instr} {s t : State} {ie : Bool} (hi : i.popsInt = true)
    (h : s.returnFromInterrupt ie = .next t) : EffectOf i s t := by
  obtain ⟨addr, z, c, b, rest, hstack, ho⟩ | ⟨-, ho⟩ | ⟨_, _, -, ho⟩ := s.returnFromInterrupt_cases ie
  · cases h.symm.trans ho
    exact .returni ie addr z c b rest hi hstack
  · cases h.symm.trans ho
  · cases h.symm.trans ho

/-- A conditional transfer ends as the transfer does, or goes on. -/
theorem EffectOf.of_when {i : Instr} {s t : State} {k : Cond} {o : Host.Outcome State Fault Refusal}
    (hi : i.isTransfer = true) (h : s.when k o = .next t) (taken : o = .next t → EffectOf i s t) : EffectOf i s t := by
  cases hk : k.holds s with
  | true => exact taken (s.when_true k o hk ▸ h)
  | false =>
    cases (s.when_false k o hk).symm.trans h
    exact .goto _ hi

/-- An instruction that completes ends by an operation of its class. -/
theorem exec_effectOf {i : Instr} {s t : State} (h : exec i s = .next t) : EffectOf i s t := by
  cases i with
  | andRR | andRK | orRR | orRK | xorRR | xorRK | addRR | addRK | addcyRR | addcyRK | subRR | subRK | subcyRR | subcyRK
  | sl0 | sl1 | slx | sla | rl | sr0 | sr1 | srx | sra | rr | hwbuild => cases h; exact .finish _ _ rfl
  | testRR | testRK | testcyRR | testcyRK | compareRR | compareRK | comparecyRR | comparecyRK =>
    cases h; exact .finishFlags _ rfl
  | loadRR | loadRK | fetchRR | fetchRK => cases h; exact .setX _ _
  | star => cases h; exact .setAlt _ _ rfl
  | disableInterrupt | enableInterrupt => cases h; exact .setIE _ rfl
  | regbankA | regbankB => cases h; exact .setBank _ rfl
  | inputRR | inputRK => cases h; exact .inputFrom _ _ rfl
  | outputRR | outputRK | outputK => cases h; exact .emit _ rfl
  | storeRR | storeRK => cases h; exact .memWrite _ _ rfl
  | jump | jumpAt => cases h; exact .goto _ rfl
  | jumpZ | jumpNZ | jumpC | jumpNC => exact .of_when rfl h fun taken => by cases taken; exact .goto _ rfl
  | call | callAt => cases h; exact .enterSubroutine _ rfl
  | callZ | callNZ | callC | callNC => exact .of_when rfl h fun taken => by cases taken; exact .enterSubroutine _ rfl
  | ret => exact .of_returnFromSubroutine rfl h
  | retZ | retNZ | retC | retNC => exact .of_when rfl h (.of_returnFromSubroutine rfl)
  | loadReturn x kk =>
    obtain ⟨addr, rest, hstack, rfl⟩ := State.returnFromSubroutine_next h
    exact .loadReturn x kk addr rest rfl hstack
  | returniDisable | returniEnable => exact .of_returnFromInterrupt rfl h

/-! ## What each class alone writes -/

/-- A write to the active bank is not seen in the other (10_state.md R22, R23). -/
theorem State.setX_reg_other (s : State) (x : RegNum) (v : Byte) (r : RegNum) :
    (s.setX x v).reg s.bank.other r = s.reg s.bank.other r :=
  (s.reg_setReg s.bank x v s.bank.other r).trans (if_neg fun h => s.bank.other_ne h.1)

section
variable {i : Instr} {s t : State}

theorem EffectOf.sameFlags (h : EffectOf i s t) (hi : i.writesFlags = false)
    (room : i.isCall = true → s.stack.length < stackLevels) : SameFlags s t := by
  cases h with
  | finish x r hw => cases hi.symm.trans hw
  | finishFlags r hw => cases hi.symm.trans hw
  | returni ie addr z c b rest hpop => cases hi.symm.trans (Instr.writes_of_popsInt hpop).1
  | enterSubroutine target hcall => rw [s.enterSubroutine_below target (room hcall)]; exact ⟨rfl, rfl⟩
  | setX | setAlt | setIE | setBank | inputFrom | emit | memWrite | goto | ret | loadReturn => exact ⟨rfl, rfl⟩

theorem EffectOf.ie_eq (h : EffectOf i s t) (hi : i.writesIE = false)
    (room : i.isCall = true → s.stack.length < stackLevels) : t.ie = s.ie := by
  cases h with
  | setIE ie hw => cases hi.symm.trans hw
  | returni ie addr z c b rest hpop => cases hi.symm.trans (Instr.writes_of_popsInt hpop).2.1
  | enterSubroutine target hcall => rw [s.enterSubroutine_below target (room hcall)]; rfl
  | finish | finishFlags | setX | setAlt | setBank | inputFrom | emit | memWrite | goto | ret | loadReturn => rfl

theorem EffectOf.bank_eq (h : EffectOf i s t) (hi : i.writesBank = false)
    (room : i.isCall = true → s.stack.length < stackLevels) : t.bank = s.bank := by
  cases h with
  | setBank b hw => cases hi.symm.trans hw
  | returni ie addr z c b rest hpop => cases hi.symm.trans (Instr.writes_of_popsInt hpop).2.2
  | enterSubroutine target hcall => rw [s.enterSubroutine_below target (room hcall)]; rfl
  | finish | finishFlags | setX | setAlt | setIE | inputFrom | emit | memWrite | goto | ret | loadReturn => rfl

theorem EffectOf.stack_eq (h : EffectOf i s t) (hcall : i.isCall = false) (hret : i.popsCall = false)
    (hreti : i.popsInt = false) : t.stack = s.stack := by
  cases h with
  | enterSubroutine target hi => cases hcall.symm.trans hi
  | ret addr rest hi => cases hret.symm.trans hi
  | loadReturn x kk addr rest hi => cases hret.symm.trans hi
  | returni ie addr z c b rest hi => cases hreti.symm.trans hi
  | finish | finishFlags | setX | setAlt | setIE | setBank | inputFrom | emit | memWrite | goto => rfl

theorem EffectOf.spm_eq (h : EffectOf i s t) (hi : i.storesToScratchPad = false)
    (room : i.isCall = true → s.stack.length < stackLevels) : t.spm = s.spm := by
  cases h with
  | memWrite a v hw => cases hi.symm.trans hw
  | enterSubroutine target hcall => rw [s.enterSubroutine_below target (room hcall)]; rfl
  | finish | finishFlags | setX | setAlt | setIE | setBank | inputFrom | emit | goto | ret | loadReturn | returni => rfl

/-- The operations that write a register, all but STAR's, write the active bank's. -/
theorem EffectOf.reg_other (h : EffectOf i s t) (hi : ∀ x y, i ≠ .star x y)
    (room : i.isCall = true → s.stack.length < stackLevels) (r : RegNum) :
    t.reg s.bank.other r = s.reg s.bank.other r := by
  cases h with
  | setAlt x y hstar => exact absurd hstar (hi x y)
  | finish x res => exact s.setX_reg_other x res.value r
  | setX x v => exact s.setX_reg_other x v r
  | inputFrom x p => exact (s.portRead p).setX_reg_other x (s.presented p) r
  | loadReturn x kk addr rest => exact ({ s with stack := rest } : State).setX_reg_other x kk r
  | enterSubroutine target hcall => rw [s.enterSubroutine_below target (room hcall)]; rfl
  | finishFlags | setIE | setBank | emit | memWrite | goto | ret | returni => rfl

end

/-- Settles O40: an operation that writes a flag asks for a flag writer. -/
theorem flagsWrittenOnlyByTable : Obligations.FlagsWrittenOnlyByTable :=
  fun _ _ _ hi room h => (exec_effectOf h).sameFlags hi room

/-- Settles O41, the three parts one by one. -/
theorem controlStateWrittenOnlyByItsInstructions : Obligations.ControlStateWrittenOnlyByItsInstructions :=
  fun _ _ _ room h =>
    ⟨fun hi => (exec_effectOf h).ie_eq hi room, fun hi => (exec_effectOf h).bank_eq hi room, (exec_effectOf h).stack_eq⟩

/-- Settles O42: the one operation that writes the scratch pad asks for a STORE. -/
theorem scratchPadWrittenOnlyByStore : Obligations.ScratchPadWrittenOnlyByStore :=
  fun _ _ _ hi room h => (exec_effectOf h).spm_eq hi room

/-- Settles O43: the banks are separate storage, and STAR's is the one write that is not to the active bank. -/
theorem inactiveBankWrittenOnlyByStar : Obligations.InactiveBankWrittenOnlyByStar :=
  fun _ _ _ hi room h => (exec_effectOf h).reg_other hi room

/-! ## The invariant -/

/-- Settles O48: the size is 4096, and neither the stack nor the scratch pad lists anything. -/
theorem resetSatisfiesInvariant : Obligations.ResetSatisfiesInvariant where
  legal := rfl
  depth := Nat.zero_le _
  canonical := rfl
  within := rfl

section
variable {s t : State}

/-- A reset empties the stack and tabulates the scratch pad anew, whatever they were. -/
theorem State.Inv.takeReset (h : s.Inv) : s.takeReset.Inv where
  legal := h.legal
  depth := Nat.zero_le _
  canonical := Memory.tabulate_wf _ _
  within := Memory.tabulate_within _ _

/-- The invariant does not speak of the counter by which the internal reset differs. -/
theorem State.Inv.overflowReset (h : s.Inv) : s.overflowReset.Inv :=
  ⟨h.takeReset.legal, h.takeReset.depth, h.takeReset.canonical, h.takeReset.within⟩

theorem State.Inv.passBoundary (h : s.Inv) : s.passBoundary.Inv := ⟨h.legal, h.depth, h.canonical, h.within⟩

theorem State.Inv.goto (h : s.Inv) (a : ProgAddr) : (s.goto a).Inv := ⟨h.legal, h.depth, h.canonical, h.within⟩

theorem State.Inv.memWrite (h : s.Inv) (a v : Byte) : (s.memWrite a v).Inv where
  legal := h.legal
  depth := h.depth
  canonical := Memory.write_wf _ h.canonical _ v
  within := Memory.write_within _ _ h.within _ (s.scratchPadIndex_lt a) v

/-- A push below 30 frames leaves at most 30; at 30 frames the stack is emptied instead (10_state.md R31). -/
theorem State.Inv.enterSubroutine (h : s.Inv) (target : ProgAddr) : (s.enterSubroutine target).Inv := by
  by_cases hroom : s.stack.length < stackLevels
  · rw [s.enterSubroutine_below target hroom]
    exact ⟨h.legal, hroom, h.canonical, h.within⟩
  · rw [s.enterSubroutine_full target hroom]
    exact h.overflowReset

theorem State.Inv.enterInterrupt (h : s.Inv) : s.enterInterrupt.Inv := by
  by_cases hroom : s.stack.length < stackLevels
  · rw [s.enterInterrupt_below hroom]
    exact ⟨h.legal, hroom, h.canonical, h.within⟩
  · rw [s.enterInterrupt_full hroom]
    exact h.overflowReset

theorem State.Inv.depth_rest (h : s.Inv) {f : Frame} {rest : List Frame} (hstack : s.stack = f :: rest) :
    rest.length ≤ stackLevels :=
  calc rest.length ≤ (f :: rest).length := Nat.le_succ _
    _ = s.stack.length := by rw [hstack]
    _ ≤ stackLevels := h.depth

/-- Only a store, a push and a pop touch what the invariant speaks of. -/
theorem Effect.inv (heff : Effect s t) (h : s.Inv) : t.Inv := by
  cases heff with
  | memWrite a v => exact (h.memWrite a v).goto _
  | enterSubroutine target => exact h.enterSubroutine target
  | ret _ _ hstack | loadReturn _ _ _ _ hstack | returni _ _ _ _ _ _ hstack =>
    exact ⟨h.legal, h.depth_rest hstack, h.canonical, h.within⟩
  | finish | finishFlags | setReg | setIE | setBank | inputFrom | emit | goto =>
    exact ⟨h.legal, h.depth, h.canonical, h.within⟩

theorem State.Inv.runInstruction (h : s.Inv) (hrun : s.runInstruction = .next t) : t.Inv := by
  obtain ⟨-, ho⟩ | ⟨_, _, -, -, ho⟩ | ⟨_, i, -, -, ho⟩ := s.runInstruction_cases
  · cases hrun.symm.trans ho
  · cases hrun.symm.trans ho
  · exact (exec_effect (ho.symm.trans hrun)).inv h

end

/-- Settles O54, by what the step does: a reset, sleep, an interrupt or an instruction (60_exceptions.md R259). -/
theorem everyStepKeepsInvariant : Obligations.EveryStepKeepsInvariant := by
  intro s t h hstep
  have hpass : s.passBoundary.Inv := h.passBoundary
  obtain ⟨-, ho⟩ | ⟨-, -, ho⟩ | ⟨-, -, -, -, ho⟩ | ⟨-, ho⟩ := step_cases s h.legal
  · cases hstep.symm.trans ho
    exact hpass.takeReset
  · cases hstep.symm.trans ho
    exact hpass
  · cases hstep.symm.trans ho
    exact hpass.enterInterrupt
  · exact hpass.runInstruction (ho.symm.trans hstep)

end Sys2Proof.Machine
end

section
/-! PROOFS. No instruction reads the inactive bank (10_state.md R23). Two states that agree outside a bank are one state with two
register files (`agreeOutsideBank_iff`). Each update keeps the agreement, and so does each operation that an instruction ends by
when it is given the same values; an instruction computes these values from the active bank and from what is no register. -/

namespace Sys2Proof.Machine

/-! ## One state with two register files -/

/-- `s` with the registers `g`. -/
def State.withRegs (s : State) (g : Registers) : State := { s with regs := g }

@[simp] theorem State.withRegs_z (s : State) (g : Registers) : (s.withRegs g).z = s.z := rfl
@[simp] theorem State.withRegs_c (s : State) (g : Registers) : (s.withRegs g).c = s.c := rfl
@[simp] theorem State.withRegs_generics (s : State) (g : Registers) : (s.withRegs g).generics = s.generics := rfl
@[simp] theorem State.withRegs_memRead (s : State) (g : Registers) (a : Byte) :
    (s.withRegs g).memRead a = s.memRead a := rfl

theorem agreeOutsideBank_iff {b : Bank} {t t' : State} :
    AgreeOutsideBank b t t' ↔ ∃ g, t' = t.withRegs g ∧ ∀ r, g.read b r = t.regs.read b r := by
  constructor
  · intro h
    obtain ⟨hbank, hreg, hpc, hz, hc, hie, hstack, hspm, hevents, hinputs, hgenerics, hprogram, hpins, hboundary,
      hresets, hoverflows, hcycles⟩ := h
    refine ⟨t'.regs, ?_, hreg⟩
    cases t
    cases t'
    simp_all [State.withRegs]
  · rintro ⟨g, rfl, hg⟩
    exact ⟨rfl, hg, rfl, rfl, rfl, rfl, rfl, rfl, rfl, rfl, rfl, rfl, rfl, rfl, rfl, rfl, rfl⟩

/-- The two relations of the model name the same fields, in another order. -/
theorem SameButInactiveBank.agree {s s' : State} (h : SameButInactiveBank s s') : AgreeOutsideBank s.bank s s' := by
  obtain ⟨hbank, hreg, hpc, hz, hc, hie, hstack, hspm, hgenerics, hprogram, hpins, hinputs, hevents, hrest⟩ := h
  exact ⟨hbank, hreg, hpc, hz, hc, hie, hstack, hspm, hevents, hinputs, hgenerics, hprogram, hpins, hrest⟩

/-! ## Updates keep the agreement -/

namespace AgreeOutsideBank

variable {b : Bank} {t t' : State}

theorem bank_eq (h : AgreeOutsideBank b t t') : t'.bank = t.bank := h.1

theorem stack_eq (h : AgreeOutsideBank b t t') : t'.stack = t.stack := by
  obtain ⟨g, rfl, -⟩ := agreeOutsideBank_iff.1 h
  rfl

/-- The environment sees no register (20_memory.md R58). -/
theorem presented_eq (h : AgreeOutsideBank b t t') (p : Byte) : t'.presented p = t.presented p := by
  obtain ⟨g, rfl, -⟩ := agreeOutsideBank_iff.1 h
  rfl

theorem holds_eq (h : AgreeOutsideBank b t t') (k : Cond) : k.holds t' = k.holds t := by
  obtain ⟨g, rfl, -⟩ := agreeOutsideBank_iff.1 h
  cases k <;> rfl

/-- An update that neither reads nor writes a register. -/
theorem update (h : AgreeOutsideBank b t t') (f : State → State) (hread : ∀ u g, f (u.withRegs g) = (f u).withRegs g)
    (hwrite : ∀ u, (f u).regs = u.regs) : AgreeOutsideBank b (f t) (f t') := by
  obtain ⟨g, rfl, hg⟩ := agreeOutsideBank_iff.1 h
  exact agreeOutsideBank_iff.2 ⟨g, hread t g, by rwa [hwrite]⟩

/-- Writing the same value to the same register, of whichever bank. -/
theorem setReg (h : AgreeOutsideBank b t t') (b' : Bank) (x : RegNum) (v : Byte) :
    AgreeOutsideBank b (t.setReg b' x v) (t'.setReg b' x v) := by
  obtain ⟨g, rfl, hg⟩ := agreeOutsideBank_iff.1 h
  refine agreeOutsideBank_iff.2 ⟨g.write b' x v, rfl, fun r => ?_⟩
  simp only [State.setReg_regs, Registers.read_write, hg]

theorem setX (h : AgreeOutsideBank b t t') (x : RegNum) {v v' : Byte} (hv : v' = v) :
    AgreeOutsideBank b (t.setX x v) (t'.setX x v') := by
  rw [t.setX_eq, t'.setX_eq, h.bank_eq, hv]
  exact h.setReg t.bank x v

theorem setAlt (h : AgreeOutsideBank b t t') (x : RegNum) {v v' : Byte} (hv : v' = v) :
    AgreeOutsideBank b (t.setAlt x v) (t'.setAlt x v') := by
  rw [t.setAlt_eq, t'.setAlt_eq, h.bank_eq, hv]
  exact h.setReg t.bank.other x v

theorem goto (h : AgreeOutsideBank b t t') {a a' : ProgAddr} (ha : a' = a) :
    AgreeOutsideBank b (t.goto a) (t'.goto a') :=
  ha ▸ h.update (·.goto a') (fun _ _ => rfl) fun _ => rfl

theorem advance (h : AgreeOutsideBank b t t') : AgreeOutsideBank b t.advance t'.advance :=
  h.update State.advance (fun _ _ => rfl) fun _ => rfl

theorem setFlags (h : AgreeOutsideBank b t t') (z c : Bool) : AgreeOutsideBank b (t.setFlags z c) (t'.setFlags z c) :=
  h.update (·.setFlags z c) (fun _ _ => rfl) fun _ => rfl

theorem setIE (h : AgreeOutsideBank b t t') (ie : Bool) : AgreeOutsideBank b (t.setIE ie) (t'.setIE ie) :=
  h.update (·.setIE ie) (fun _ _ => rfl) fun _ => rfl

theorem setBank (h : AgreeOutsideBank b t t') (b' : Bank) : AgreeOutsideBank b (t.setBank b') (t'.setBank b') :=
  h.update (·.setBank b') (fun _ _ => rfl) fun _ => rfl

theorem memWrite (h : AgreeOutsideBank b t t') {a a' v v' : Byte} (ha : a' = a) (hv : v' = v) :
    AgreeOutsideBank b (t.memWrite a v) (t'.memWrite a' v') :=
  ha ▸ hv ▸ h.update (·.memWrite a' v') (fun _ _ => rfl) fun _ => rfl

theorem emit (h : AgreeOutsideBank b t t') {e e' : Event} (he : e' = e) :
    AgreeOutsideBank b (t.emit e) (t'.emit e') :=
  he ▸ h.update (·.emit e') (fun _ _ => rfl) fun _ => rfl

theorem portRead (h : AgreeOutsideBank b t t') (p : Byte) : AgreeOutsideBank b (t.portRead p) (t'.portRead p) :=
  h.update (·.portRead p) (fun _ _ => rfl) fun _ => rfl

theorem withStack (h : AgreeOutsideBank b t t') (frames : List Frame) :
    AgreeOutsideBank b { t with stack := frames } { t' with stack := frames } :=
  h.update (fun u => { u with stack := frames }) (fun _ _ => rfl) fun _ => rfl

/-! ## Operations that end an instruction keep it -/

theorem finish (h : AgreeOutsideBank b t t') (x : RegNum) {r r' : Result} (hr : r' = r) :
    AgreeOutsideBank b (t.finish x r) (t'.finish x r') := by
  subst hr
  exact ((h.setX x rfl).setFlags r'.z r'.c).advance

theorem finishFlags (h : AgreeOutsideBank b t t') {r r' : Result} (hr : r' = r) :
    AgreeOutsideBank b (t.finishFlags r) (t'.finishFlags r') := by
  subst hr
  exact (h.setFlags r'.z r'.c).advance

theorem inputFrom (h : AgreeOutsideBank b t t') (x : RegNum) {p p' : Byte} (hp : p' = p) :
    AgreeOutsideBank b (t.inputFrom x p) (t'.inputFrom x p') := by
  subst hp
  exact ((h.portRead p').setX x (h.presented_eq p')).advance

/-- Below 30 frames, where a CALL pushes its address and does not reset the machine (10_state.md R31). -/
theorem enterSubroutine (h : AgreeOutsideBank b t t') (room : t.stack.length < stackLevels)
    {a a' : ProgAddr} (ha : a' = a) : AgreeOutsideBank b (t.enterSubroutine a) (t'.enterSubroutine a') := by
  subst ha
  obtain ⟨g, rfl, hg⟩ := agreeOutsideBank_iff.1 h
  rw [t.enterSubroutine_below a' room, (t.withRegs g).enterSubroutine_below a' room]
  exact (h.withStack (.call t.pc :: t.stack)).goto rfl

end AgreeOutsideBank

/-! ## Outcomes -/

/-- Both runs stop for the same reason, or both complete in states that agree outside bank `b`. -/
inductive OutcomesAgree (b : Bank) : Host.Outcome State Fault Refusal → Host.Outcome State Fault Refusal → Prop
  | next {t t' : State} (h : AgreeOutsideBank b t t') : OutcomesAgree b (.next t) (.next t')
  | fault (f : Fault) : OutcomesAgree b (.fault f) (.fault f)
  | refused (r : Refusal) : OutcomesAgree b (.refused r) (.refused r)

/-- The three clauses in which the statement says it. -/
theorem OutcomesAgree.clauses {b : Bank} {o o' : Host.Outcome State Fault Refusal} (h : OutcomesAgree b o o') :
    (∀ t, o = .next t → ∃ t', o' = .next t' ∧ AgreeOutsideBank b t t') ∧ (∀ f, o = .fault f → o' = .fault f) ∧
      (∀ r, o = .refused r → o' = .refused r) := by
  cases h with
  | next h => exact ⟨fun t ht => by cases ht; exact ⟨_, rfl, h⟩, nofun, nofun⟩
  | fault f => exact ⟨nofun, fun _ hf => hf, nofun⟩
  | refused r => exact ⟨nofun, nofun, fun _ hr => hr⟩

namespace AgreeOutsideBank

variable {b : Bank} {t t' : State}

theorem conditional (h : AgreeOutsideBank b t t') (k : Cond) {o o' : Host.Outcome State Fault Refusal}
    (taken : OutcomesAgree b o o') : OutcomesAgree b (t.when k o) (t'.when k o') := by
  cases hk : k.holds t with
  | true =>
    rw [t.when_true k o hk, t'.when_true k o' ((h.holds_eq k).trans hk)]
    exact taken
  | false =>
    rw [t.when_false k o hk, t'.when_false k o' ((h.holds_eq k).trans hk)]
    exact .next h.advance

theorem returnFromSubroutine (h : AgreeOutsideBank b t t') (load : State → State)
    (hload : ∀ {u u' : State}, AgreeOutsideBank b u u' → AgreeOutsideBank b (load u) (load u')) :
    OutcomesAgree b (t.returnFromSubroutine load) (t'.returnFromSubroutine load) := by
  have hstack := h.stack_eq
  unfold State.returnFromSubroutine State.popCall
  rw [hstack]
  match t.stack with
  | [] => exact .fault _
  | .int _ _ _ _ :: _ => exact .fault _
  | .call addr :: rest => exact .next ((hload (h.withStack rest)).goto rfl)

theorem returnFromInterrupt (h : AgreeOutsideBank b t t') (ie : Bool) :
    OutcomesAgree b (t.returnFromInterrupt ie) (t'.returnFromInterrupt ie) := by
  have hstack := h.stack_eq
  unfold State.returnFromInterrupt
  rw [hstack]
  match t.stack with
  | [] => exact .fault _
  | .call _ :: _ => exact .fault _
  | .int addr z c b' :: rest =>
    exact .next (((((h.withStack rest).setFlags z c).setBank b').setIE ie).goto rfl)

end AgreeOutsideBank

/-! ## Every instruction -/

/-- What an instruction computes, it computes from the active bank (`hx`) and from what is no register. -/
theorem exec_agree {i : Instr} {s s' : State} (h : AgreeOutsideBank s.bank s s')
    (room : i.isCall = true → s.stack.length < stackLevels) : OutcomesAgree s.bank (exec i s) (exec i s') := by
  obtain ⟨g, rfl, hg⟩ := agreeOutsideBank_iff.1 h
  have hx : ∀ r, (s.withRegs g).x r = s.x r := hg
  have hpair : ∀ x y, (s.withRegs g).pairAddress x y = s.pairAddress x y := fun x y => by simp [State.pairAddress, hx]
  cases i with
  | andRR | andRK | orRR | orRK | xorRR | xorRK | addRR | addRK | addcyRR | addcyRK | subRR | subRK | subcyRR | subcyRK
  | sl0 | sl1 | slx | sla | rl | sr0 | sr1 | srx | sra | rr | hwbuild =>
    exact .next (h.finish _ (by simp [Operand.value, hx]))
  | testRR | testRK | testcyRR | testcyRK | compareRR | compareRK | comparecyRR | comparecyRK =>
    exact .next (h.finishFlags (by simp [Operand.value, hx]))
  | loadRR | loadRK | fetchRR | fetchRK => exact .next (h.setX _ (by simp [Operand.value, hx])).advance
  | star x y => exact .next (h.setAlt x (hx y)).advance
  | disableInterrupt | enableInterrupt => exact .next (h.setIE _).advance
  | regbankA | regbankB => exact .next (h.setBank _).advance
  | inputRR | inputRK => exact .next (h.inputFrom _ (by simp [Operand.value, hx]))
  | outputRR | outputRK | outputK => exact .next (h.emit (by simp [Operand.value, hx])).advance
  | storeRR | storeRK => exact .next (h.memWrite (by simp [Operand.value, hx]) (hx _)).advance
  | jump => exact .next (h.goto rfl)
  | jumpAt x y => exact .next (h.goto (hpair x y))
  | jumpZ | jumpNZ | jumpC | jumpNC => exact h.conditional _ (.next (h.goto rfl))
  | call => exact .next (h.enterSubroutine (room rfl) rfl)
  | callAt x y => exact .next (h.enterSubroutine (room rfl) (hpair x y))
  | callZ | callNZ | callC | callNC => exact h.conditional _ (.next (h.enterSubroutine (room rfl) rfl))
  | ret => exact h.returnFromSubroutine id id
  | retZ | retNZ | retC | retNC => exact h.conditional _ (h.returnFromSubroutine id id)
  | loadReturn x kk => exact h.returnFromSubroutine (·.setX x kk) (·.setX x rfl)
  | returniDisable | returniEnable => exact h.returnFromInterrupt _

/-- Settles O44: the two runs' outcomes agree, and `OutcomesAgree` says the three clauses at once. -/
theorem inactiveBankIsNotRead : Obligations.InactiveBankIsNotRead :=
  fun _ _ _ h room => (exec_agree h.agree room).clauses

end Sys2Proof.Machine
end

section
/-! PROOFS. The memories and the ports of 20_memory.md. A FETCH after a STORE reads what the scratch pad write left, which
`State.memRead_memWrite` says. An instruction outside the port accesses ends by an operation that leaves the events alone. -/

namespace Sys2Proof.Machine

/-! ## A FETCH after a STORE -/

theorem execAll_cons_of_next {i : Instr} {s t : State} (h : exec i s = .next t) (rest : List Instr) :
    execAll (i :: rest) s = execAll rest t := by
  rw [execAll, h]

theorem exec_storeRK (x : RegNum) (a : Byte) (s : State) :
    exec (.storeRK x a) s = .next (s.memWrite a (s.x x)).advance := rfl

theorem exec_fetchRK (y : RegNum) (b : Byte) (s : State) : exec (.fetchRK y b) s = .next (s.fetchFrom y b) := rfl

theorem State.fetchFrom_reg_same (s : State) (y : RegNum) (b : Byte) :
    (s.fetchFrom y b).reg s.bank y = s.memRead b :=
  (s.reg_setReg s.bank y (s.memRead b) s.bank y).trans (if_pos ⟨rfl, rfl⟩)

/-- Settles O26: FETCH loads what the write left at its location, and STORE leaves the active bank active. -/
theorem fetchAfterStore : Obligations.FetchAfterStore := by
  intro s x y a b hwf
  have hrun : execAll [.storeRK x a, .fetchRK y b] s = .next ((s.memWrite a (s.x x)).advance.fetchFrom y b) := by
    rw [execAll_cons_of_next (exec_storeRK x a s), execAll_cons_of_next (exec_fetchRK y b _), execAll]
  have hloaded := (s.memWrite a (s.x x)).advance.fetchFrom_reg_same y b
  exact ⟨_, hrun, hloaded.trans (s.memRead_memWrite hwf a (s.x x) b)⟩

/-! ## Port events -/

/-- Neither a push nor the reset that stands in for it emits an event (10_state.md R31). -/
theorem State.enterSubroutine_events (s : State) (target : ProgAddr) : (s.enterSubroutine target).events = s.events := by
  by_cases hroom : s.stack.length < stackLevels
  · rw [s.enterSubroutine_below target hroom]
    rfl
  · rw [s.enterSubroutine_full target hroom]
    exact s.takeReset_events

/-- The two operations that emit an event ask for a port access. -/
theorem EffectOf.events_eq {i : Instr} {s t : State} (h : EffectOf i s t) (hi : i.isPortAccess = false) :
    t.events = s.events := by
  cases h with
  | inputFrom x p hport => cases hi.symm.trans hport
  | emit e hport => cases hi.symm.trans hport
  | enterSubroutine target => exact s.enterSubroutine_events target
  | finish | finishFlags | setX | setAlt | setIE | setBank | memWrite | goto | ret | loadReturn | returni => rfl

/-- An INPUT emits the read of its port, an OUTPUT or OUTPUTK its write (20_memory.md R61). -/
theorem exec_portAccess_events {i : Instr} {s t : State} (hi : i.isPortAccess = true) (h : exec i s = .next t) :
    ∃ e, t.events = s.events ++ [e] := by
  cases i with
  | inputRR x y => cases h; exact ⟨_, s.portRead_events (s.x y)⟩
  | inputRK x pp => cases h; exact ⟨_, s.portRead_events pp⟩
  | outputRR x y => cases h; exact ⟨_, s.emit_events (.write (s.x y) (s.x x))⟩
  | outputRK x pp => cases h; exact ⟨_, s.emit_events (.write pp (s.x x))⟩
  | outputK kk p => cases h; exact ⟨_, s.emit_events (.writeK p kk)⟩
  | _ => cases hi

/-- Settles O45: a port access by its own event, every other instruction by the operation that ends it. -/
theorem oneEventPerPortAccess : Obligations.OneEventPerPortAccess :=
  fun _ _ _ h => ⟨fun hi => exec_portAccess_events hi h, (exec_effectOf h).events_eq⟩

end Sys2Proof.Machine
end

section
/-! PROOFS. The decoder and the encoder (30_encoding.md R70 to R78, R84). Every opcode has one of the formats of R72, and the
encoder writes under it the format the decoder reads (`decode_reading`): the round trips follow format by format. A row's mask
keeps the fields its format fixes, so a word that matches a row decodes to an instruction of that row
(`exists_decode_of_matches`). -/

namespace Sys2Proof.Laws.OpcodeRow

/-- The per-instruction laws of this family, as one law over every instruction. -/
theorem holds : (i : Instr) → Statement i
  | .loadRR x y => loadRR x y | .loadRK x kk => loadRK x kk | .star x y => star x y
  | .disableInterrupt => disableInterrupt | .enableInterrupt => enableInterrupt | .returniDisable => returniDisable
  | .returniEnable => returniEnable | .sl0 x => sl0 x | .sl1 x => sl1 x | .slx x => slx x | .sla x => sla x
  | .rl x => rl x | .sr0 x => sr0 x | .sr1 x => sr1 x | .srx x => srx x | .sra x => sra x | .rr x => rr x
  | .andRR x y => andRR x y | .andRK x kk => andRK x kk | .orRR x y => orRR x y | .orRK x kk => orRK x kk
  | .xorRR x y => xorRR x y | .xorRK x kk => xorRK x kk | .jump aaa => jump aaa | .jumpZ aaa => jumpZ aaa
  | .jumpNZ aaa => jumpNZ aaa | .jumpC aaa => jumpC aaa | .jumpNC aaa => jumpNC aaa | .jumpAt x y => jumpAt x y
  | .inputRR x y => inputRR x y | .inputRK x pp => inputRK x pp | .outputRR x y => outputRR x y
  | .outputRK x pp => outputRK x pp | .outputK kk p => outputK kk p | .addRR x y => addRR x y
  | .addRK x kk => addRK x kk | .addcyRR x y => addcyRR x y | .addcyRK x kk => addcyRK x kk | .subRR x y => subRR x y
  | .subRK x kk => subRK x kk | .subcyRR x y => subcyRR x y | .subcyRK x kk => subcyRK x kk | .testRR x y => testRR x y
  | .testRK x kk => testRK x kk | .testcyRR x y => testcyRR x y | .testcyRK x kk => testcyRK x kk
  | .compareRR x y => compareRR x y | .compareRK x kk => compareRK x kk | .comparecyRR x y => comparecyRR x y
  | .comparecyRK x kk => comparecyRK x kk | .regbankA => regbankA | .regbankB => regbankB | .storeRR x y => storeRR x y
  | .storeRK x ss => storeRK x ss | .fetchRR x y => fetchRR x y | .fetchRK x ss => fetchRK x ss | .call aaa => call aaa
  | .callZ aaa => callZ aaa | .callNZ aaa => callNZ aaa | .callC aaa => callC aaa | .callNC aaa => callNC aaa
  | .callAt x y => callAt x y | .ret => ret | .retZ => retZ | .retNZ => retNZ | .retC => retC | .retNC => retNC
  | .loadReturn x kk => loadReturn x kk | .hwbuild x => hwbuild x

end Sys2Proof.Laws.OpcodeRow

namespace Sys2Proof

open Laws

/-! ## What each format's reader accepts -/

section
variable {w : IWord} {i : Instr}

theorem decodeRR_eq_instr_iff {f : RegNum → RegNum → Instr} :
    decodeRR w f = .instr i ↔ fieldPK w = 0x0#4 ∧ f (fieldX w) (fieldY w) = i := by
  by_cases hlow : fieldPK w = 0x0#4 <;> simp [decodeRR, hlow]

theorem decodeF0_eq_instr_iff {j : Instr} : decodeF0 w j = .instr i ↔ fieldAAA w = 0x000#12 ∧ j = i := by
  by_cases h₀ : fieldAAA w = 0x000#12 <;> simp [decodeF0, h₀]

theorem decodeF01_eq_instr_iff {i₀ i₁ : Instr} :
    decodeF01 w i₀ i₁ = .instr i ↔ fieldAAA w = 0x000#12 ∧ i₀ = i ∨ fieldAAA w = 0x001#12 ∧ i₁ = i := by
  by_cases h₀ : fieldAAA w = 0x000#12
  · simp [decodeF01, h₀]
  · by_cases h₁ : fieldAAA w = 0x001#12 <;> simp [decodeF01, h₀, h₁]

/-- A shift's selector and register are the ones its word carries. -/
theorem encode_of_decodeSH (h : decodeSH w = .instr i) : encode i = wordSH (fieldX w) (fieldKK w) := by
  unfold decodeSH at h
  split at h
  all_goals cases h
  all_goals rw [(BitVec.toNat_eq_nat.mp ‹(fieldKK w).toNat = _›).2, encode]

end

/-! ## Decoding an encoded instruction -/

theorem decodeRR_wordRR (op : BitVec 6) (x y : RegNum) (f : RegNum → RegNum → Instr) :
    decodeRR (wordRR op x y) f = .instr (f x y) :=
  decodeRR_eq_instr_iff.mpr ⟨wordRR_low op x y, by rw [wordRR_x, wordRR_y]⟩

theorem decodeRK_wordRK (op : BitVec 6) (x : RegNum) (kk : Byte) (f : RegNum → Byte → Instr) :
    decodeRK (wordRK op x kk) f = .instr (f x kk) := by
  rw [decodeRK, wordRK_x, wordRK_kk]

theorem decodeA_wordF (op : BitVec 6) (aaa : ProgAddr) (f : ProgAddr → Instr) :
    decodeA (wordF op aaa) f = .instr (f aaa) := by
  rw [decodeA, wordF_aaa]

theorem decodeKP_wordKP (kk : Byte) (p : PortK) (f : Byte → PortK → Instr) :
    decodeKP (wordKP kk p) f = .instr (f kk p) := by
  rw [decodeKP, wordKP_kk, wordKP_p]

/-- Settles O1, format by format: the opcode the encoder wrote selects the reader of the format it wrote. -/
theorem decodeInvertsEncode : Obligations.DecodeInvertsEncode := by
  intro i
  cases i with
  | loadRR x y | star x y | andRR x y | orRR x y | xorRR x y | jumpAt x y | inputRR x y | outputRR x y | addRR x y
  | addcyRR x y | subRR x y | subcyRR x y | testRR x y | testcyRR x y | compareRR x y | comparecyRR x y | storeRR x y
  | fetchRR x y | callAt x y =>
    rw [encode, decode, wordRR_op]
    exact decodeRR_wordRR _ x y _
  | loadRK x kk | andRK x kk | orRK x kk | xorRK x kk | inputRK x kk | outputRK x kk | addRK x kk | addcyRK x kk
  | subRK x kk | subcyRK x kk | testRK x kk | testcyRK x kk | compareRK x kk | comparecyRK x kk | storeRK x kk
  | fetchRK x kk | loadReturn x kk =>
    rw [encode, decode, wordRK_op]
    exact decodeRK_wordRK _ x kk _
  | jump aaa | jumpZ aaa | jumpNZ aaa | jumpC aaa | jumpNC aaa | call aaa | callZ aaa | callNZ aaa | callC aaa
  | callNC aaa =>
    rw [encode, decode, wordA_eq, wordF_op]
    exact decodeA_wordF _ aaa _
  | outputK kk p =>
    rw [encode, decode, wordKP_op]
    exact decodeKP_wordKP kk p _
  | sl0 x | sl1 x | slx x | sla x | rl x | sr0 x | sr1 x | srx x | sra x | rr x | hwbuild x =>
    rw [encode, wordSH_eq, decode, wordRK_op]
    simp [decodeSH]
  | disableInterrupt | enableInterrupt | returniDisable | returniEnable | regbankA | regbankB | ret | retZ | retNZ | retC
  | retNC => rfl

/-! ## Encoding what was decoded -/

/-- `Reading w d`: `d` is what one format's reader makes of `w`, and the encoder writes that format under `w`'s opcode;
`decode_reading` ties it to `decode`. -/
inductive Reading (w : IWord) : Decoded → Prop
  | rr (f : RegNum → RegNum → Instr) (hf : ∀ x y, encode (f x y) = wordRR (fieldOp w) x y) : Reading w (decodeRR w f)
  | rk (f : RegNum → Byte → Instr) (hf : ∀ x kk, encode (f x kk) = wordRK (fieldOp w) x kk) : Reading w (decodeRK w f)
  | a (f : ProgAddr → Instr) (hf : ∀ aaa, encode (f aaa) = wordA (fieldOp w) aaa) : Reading w (decodeA w f)
  | kp (hop : fieldOp w = 0x2B#6) : Reading w (decodeKP w .outputK)
  | f0 (i : Instr) (hi : encode i = wordF (fieldOp w) 0x000#12) : Reading w (decodeF0 w i)
  | f01 (i₀ i₁ : Instr) (hi₀ : encode i₀ = wordF (fieldOp w) 0x000#12) (hi₁ : encode i₁ = wordF (fieldOp w) 0x001#12) :
      Reading w (decodeF01 w i₀ i₁)
  | sh (hop : fieldOp w = 0x14#6) : Reading w (decodeSH w)
  | unlisted : Reading w (.reserved .unlistedOpcode)

theorem decode_reading (w : IWord) : Reading w (decode w) := by
  unfold decode
  split
  all_goals constructor
  all_goals simp [encode, (BitVec.toNat_eq_nat.mp ‹(fieldOp w).toNat = _›).2]

theorem Reading.encode_eq {w : IWord} {i : Instr} {d : Decoded} (h : Reading w d) (hd : d = .instr i) : encode i = w := by
  cases h with
  | rr f hf =>
    obtain ⟨hlow, rfl⟩ := decodeRR_eq_instr_iff.mp hd
    rw [hf, wordRR_fields w hlow]
  | rk f hf =>
    cases hd
    rw [hf, wordRK_fields]
  | a f hf =>
    cases hd
    rw [hf, wordA_eq, wordF_fields]
  | kp hop =>
    cases hd
    exact wordKP_fields w hop
  | f0 j hj =>
    obtain ⟨h₀, rfl⟩ := decodeF0_eq_instr_iff.mp hd
    rw [hj, ← h₀, wordF_fields]
  | f01 i₀ i₁ hi₀ hi₁ =>
    obtain ⟨h₀, rfl⟩ | ⟨h₁, rfl⟩ := decodeF01_eq_instr_iff.mp hd
    · rw [hi₀, ← h₀, wordF_fields]
    · rw [hi₁, ← h₁, wordF_fields]
  | sh hop => rw [encode_of_decodeSH hd, wordSH_eq, ← hop, wordRK_fields]
  | unlisted => cases hd

/-- Settles O2: the reader of each format leaves no bit of the word unread. -/
theorem encodeInvertsDecode : Obligations.EncodeInvertsDecode :=
  fun w _ h => (decode_reading w).encode_eq h

/-! ## The opcode table -/

/-- Words that agree under a mask agree on each field the mask covers. -/
theorem extract_eq_of_agree {w v mask : IWord} (h : w &&& mask = v &&& mask) (start len : Nat)
    (full : mask.extractLsb' start len = BitVec.allOnes len) :
    w.extractLsb' start len = v.extractLsb' start len := by
  have hfield := congrArg (BitVec.extractLsb' start len) h
  rwa [BitVec.extractLsb'_and, BitVec.extractLsb'_and, full, BitVec.and_allOnes, BitVec.and_allOnes] at hfield

/-- The bits a row leaves free are operands of one format, so every word of the row decodes to an instruction of it. -/
theorem exists_decode_of_row_matches {i : Instr} {w : IWord} (h : i.row.matches w = true) :
    ∃ j, decode w = .instr j ∧ j.row = i.row := by
  have hw : w &&& i.row.mask = encode i &&& i.row.mask := (eq_of_beq h).trans (OpcodeRow.holds i).symm
  cases i with
  | loadRR x y | star x y | andRR x y | orRR x y | xorRR x y | jumpAt x y | inputRR x y | outputRR x y | addRR x y
  | addcyRR x y | subRR x y | subcyRR x y | testRR x y | testcyRR x y | compareRR x y | comparecyRR x y | storeRR x y
  | fetchRR x y | callAt x y =>
    have hop := (extract_eq_of_agree (mask := 0x3F00F#18) hw 12 6 (by decide)).trans (wordRR_op _ x y)
    have hlow := (extract_eq_of_agree (mask := 0x3F00F#18) hw 0 4 (by decide)).trans (wordRR_low _ x y)
    rw [decode, fieldOp, hop]
    exact ⟨_, decodeRR_eq_instr_iff.mpr ⟨hlow, rfl⟩, rfl⟩
  | loadRK | andRK | orRK | xorRK | inputRK | outputRK | addRK | addcyRK | subRK | subcyRK | testRK | testcyRK | compareRK
  | comparecyRK | storeRK | fetchRK | loadReturn =>
    have hop := (extract_eq_of_agree (mask := 0x3F000#18) hw 12 6 (by decide)).trans (wordRK_op _ _ _)
    rw [decode, fieldOp, hop]
    exact ⟨_, rfl, rfl⟩
  | jump | jumpZ | jumpNZ | jumpC | jumpNC | call | callZ | callNZ | callC | callNC =>
    have hop := (extract_eq_of_agree (mask := 0x3F000#18) hw 12 6 (by decide)).trans (wordF_op _ _)
    rw [decode, fieldOp, hop]
    exact ⟨_, rfl, rfl⟩
  | outputK =>
    have hop := (extract_eq_of_agree (mask := 0x3F000#18) hw 12 6 (by decide)).trans (wordKP_op _ _)
    rw [decode, fieldOp, hop]
    exact ⟨_, rfl, rfl⟩
  | sl0 x | sl1 x | slx x | sla x | rl x | sr0 x | sr1 x | srx x | sra x | rr x | hwbuild x =>
    have hop := (extract_eq_of_agree (mask := 0x3F0FF#18) hw 12 6 (by decide)).trans (wordRK_op _ x _)
    have hsh := (extract_eq_of_agree (mask := 0x3F0FF#18) hw 0 8 (by decide)).trans (wordRK_kk _ x _)
    rw [decode, fieldOp, hop]
    change ∃ j, decodeSH w = .instr j ∧ _
    rw [decodeSH, fieldKK, hsh]
    exact ⟨_, rfl, rfl⟩
  | disableInterrupt | enableInterrupt | returniDisable | returniEnable | regbankA | regbankB | ret | retZ | retNZ | retC
  | retNC =>
    change w &&& BitVec.allOnes 18 = _ &&& BitVec.allOnes 18 at hw
    rw [BitVec.and_allOnes, BitVec.and_allOnes] at hw
    exact ⟨_, (congrArg decode hw).trans (decodeInvertsEncode _), rfl⟩

/-- The row of the instruction read, where there is one. -/
def Decoded.row? : Decoded → Option Row
  | .instr i => some i.row
  | .reserved _ => none

/-- Each row's own value, all its free bits 0, is the word of an instruction of that row. -/
theorem row?_decode_value : ∀ r ∈ opcodeTable, (decode r.value).row? = some r := by decide

theorem exists_row_eq {r : Row} (hr : r ∈ opcodeTable) : ∃ i : Instr, i.row = r := by
  have hvalue := row?_decode_value r hr
  cases hd : decode r.value with
  | instr i =>
    rw [hd] at hvalue
    exact ⟨i, Option.some.inj hvalue⟩
  | reserved why =>
    rw [hd] at hvalue
    cases hvalue

theorem exists_decode_of_matches {r : Row} {w : IWord} (hr : r ∈ opcodeTable) (h : r.matches w = true) :
    ∃ i, decode w = .instr i ∧ i.row = r := by
  obtain ⟨i, rfl⟩ := exists_row_eq hr
  exact exists_decode_of_row_matches h

theorem Instr.rowNumber_lt (i : Instr) : i.rowNumber - 1 < 69 := by
  cases i <;> simp [rowNumber]

theorem Instr.row_mem (i : Instr) : i.row ∈ opcodeTable := by
  have hlt : i.rowNumber - 1 < opcodeTable.length := i.rowNumber_lt
  rw [Instr.row, List.getD_eq_getElem _ _ hlt]
  exact List.getElem_mem hlt

theorem Instr.row_matches_encode (i : Instr) : i.row.matches (encode i) = true :=
  beq_iff_eq.mpr (OpcodeRow.holds i)

/-- Settles O3: a word that decodes is the encoding of an instruction, which has the fixed bits of its own row. -/
theorem decoderAcceptsExactlyTableWords : Obligations.DecoderAcceptsExactlyTableWords := by
  intro w
  constructor
  · rintro ⟨i, hi⟩
    have hw : encode i = w := encodeInvertsDecode w i hi
    exact ⟨i.row, i.row_mem, hw ▸ i.row_matches_encode⟩
  · rintro ⟨r, hr, h⟩
    obtain ⟨i, hi, -⟩ := exists_decode_of_matches hr h
    exact ⟨i, hi⟩

/-- Settles O4: the word decodes to one instruction, and both rows are that instruction's. -/
theorem noWordMatchesTwoRows : Obligations.NoWordMatchesTwoRows := by
  intro w r hr r' hr' h h'
  obtain ⟨i, hi, rfl⟩ := exists_decode_of_matches hr h
  obtain ⟨j, hj, rfl⟩ := exists_decode_of_matches hr' h'
  cases hi.symm.trans hj
  rfl

/-! ## Printed words -/

/-- Settles O6, by running the decoder on the eight words. -/
theorem printedWordsDecode : Obligations.PrintedWordsDecode := by
  unfold Obligations.PrintedWordsDecode
  decide

end Sys2Proof
end

section
/-! PROOFS. The assembler (30_encoding.md R87, R88, R91). Text of hexadecimal digits reads back as the number it writes
(`readConstant_hexText`), whatever a program defines; with it an operand form of R87 gives the operands it was written from. -/

namespace Sys2Proof.Asm

/-! ## A constant's text -/

theorem digitValue_hexDigit {n : Nat} (hn : n < 16) : digitValue (hexDigit n) = some n := by
  interval_cases n <;> rfl

theorem digitValue_isSome_of_mem_hexText {ch : Char} :
    (d n : Nat) → ch ∈ hexText d n → (digitValue ch).isSome = true
  | d + 1, n, h => by
    rw [hexText, List.mem_append, List.mem_singleton] at h
    obtain h | rfl := h
    · exact digitValue_isSome_of_mem_hexText d (n / 16) h
    · rw [digitValue_hexDigit (Nat.mod_lt n (by decide))]
      rfl

/-- Text of hexadecimal digits is a hexadecimal constant: none of its characters is a quote or starts a suffix (R88). -/
theorem readConstant_of_digits {text : List Char} (h : ∀ ch ∈ text, (digitValue ch).isSome = true) :
    readConstant text = readDigits 16 text := by
  have hrev : ∀ ch ∈ text.reverse, (digitValue ch).isSome = true := fun ch hmem => h ch (List.mem_reverse.mp hmem)
  unfold readConstant
  split
  next => exact absurd (h _ List.mem_cons_self) (by decide)
  next =>
    split
    next heq =>
      rw [heq] at hrev
      exact absurd (hrev _ (List.mem_cons_of_mem _ List.mem_cons_self)) (by decide)
    next heq =>
      rw [heq] at hrev
      exact absurd (hrev _ (List.mem_cons_of_mem _ List.mem_cons_self)) (by decide)
    next => rfl

theorem readDigitsFrom_append_digit {base n d : Nat} {ch : Char} (hd : digitValue ch = some d) (hlt : d < base) :
    (acc : Nat) → (text : List Char) → readDigitsFrom base acc text = some n →
      readDigitsFrom base acc (text ++ [ch]) = some (n * base + d)
  | acc, [], h => by
    cases h
    simp [readDigitsFrom, hd, hlt]
  | acc, c :: rest, h => by
    rw [List.cons_append, readDigitsFrom]
    rw [readDigitsFrom] at h
    split at h
    · split at h
      · exact (if_pos ‹_›).trans (readDigitsFrom_append_digit hd hlt _ rest h)
      · cases h
    · cases h

theorem readDigitsFrom_hexText : (d n : Nat) → n < 16 ^ d → readDigitsFrom 16 0 (hexText d n) = some n
  | 0, n, h => by
    rw [Nat.lt_one_iff.mp h, hexText, readDigitsFrom]
  | d + 1, n, h => by
    have hhigh := readDigitsFrom_hexText d (n / 16) (by omega)
    have hlow := Nat.mod_lt n (by decide : 16 > 0)
    rw [hexText, readDigitsFrom_append_digit (digitValue_hexDigit hlow) hlow 0 _ hhigh, Nat.div_add_mod']

theorem readConstant_hexText {d n : Nat} (h : n < 16 ^ (d + 1)) : readConstant (hexText (d + 1) n) = some n := by
  rw [readConstant_of_digits fun ch => digitValue_isSome_of_mem_hexText (d + 1) n, readDigits,
    if_neg (by simp [hexText]), readDigitsFrom_hexText (d + 1) n h]

/-! ## Operands -/

section
variable (sym : Symbols)

theorem Expr.bits_of_value {w : Nat} {e : Expr} {v : BitVec w} (h : e.value sym = some v.toNat) :
    e.bits sym w = some v := by
  simp [Expr.bits, h, v.isLt]

theorem bits_port (p : PortK) : (Expr.text (hexText 1 p.toNat)).bits sym 4 = some p :=
  Expr.bits_of_value sym (readConstant_hexText p.isLt)

theorem bits_byte (kk : Byte) : (Expr.text (hexText 2 kk.toNat)).bits sym 8 = some kk :=
  Expr.bits_of_value sym (readConstant_hexText kk.isLt)

theorem bits_address (a : ProgAddr) : (Expr.text (hexText 3 a.toNat)).bits sym 12 = some a :=
  Expr.bits_of_value sym (readConstant_hexText a.isLt)

theorem bits_code (n : String) (b : Byte) : (Expr.code n b).bits sym 8 = some b :=
  Expr.bits_of_value sym rfl

theorem withRK_default {e : Expr} {kk : Byte} (h : e.bits sym 8 = some kk) (x : RegNum) (f : RegNum → Byte → Instr) :
    withRK sym (.default x) e f = some (f x kk) := by
  rw [withRK, h, RegName.num]

theorem withA_address (a : ProgAddr) (f : ProgAddr → Instr) : withA sym (.text (hexText 3 a.toNat)) f = some (f a) := by
  rw [withA, bits_address, Option.map_some]

theorem assemble_outputk {e p : Expr} {kk : Byte} {port : PortK} (hkk : e.bits sym 8 = some kk)
    (hport : p.bits sym 4 = some port) : assemble sym .outputk [.value e, .value p] = some (.outputK kk port) := by
  simp only [assemble, hkk, hport]

theorem assemble_loadReturn {e : Expr} {kk : Byte} (h : e.bits sym 8 = some kk) (x : RegNum) :
    assemble sym .loadReturn [plainReg x, .value e] = some (.loadReturn x kk) :=
  withRK_default sym h x .loadReturn

end

/-- Settles O59: default register names stand for themselves, and each constant's text reads back in the width of its
operand. -/
theorem writtenInstructionAssembles : Obligations.WrittenInstructionAssembles := by
  intro sym i
  cases i with
  | loadRK x kk | andRK x kk | orRK x kk | xorRK x kk | inputRK x kk | outputRK x kk | addRK x kk | addcyRK x kk
  | subRK x kk | subcyRK x kk | testRK x kk | testcyRK x kk | compareRK x kk | comparecyRK x kk | storeRK x kk
  | fetchRK x kk | loadReturn x kk => exact withRK_default sym (bits_byte sym kk) x _
  | jump a | jumpZ a | jumpNZ a | jumpC a | jumpNC a | call a | callZ a | callNZ a | callC a | callNC a =>
    exact withA_address sym a _
  | outputK kk p => exact assemble_outputk sym (bits_byte sym kk) (bits_port sym p)
  | loadRR | star | andRR | orRR | xorRR | jumpAt | inputRR | outputRR | addRR | addcyRR | subRR | subcyRR | testRR
  | testcyRR | compareRR | comparecyRR | storeRR | fetchRR | callAt | sl0 | sl1 | slx | sla | rl | sr0 | sr1 | srx | sra
  | rr | hwbuild | disableInterrupt | enableInterrupt | returniDisable | returniEnable | regbankA | regbankB | ret | retZ
  | retNZ | retC | retNC => rfl

/-! ## String expansion (R91) -/

/-- A line that expands to one copy per code assembles to one instruction per code, in order (R91). -/
theorem assembleLine_copies {sym : Symbols} {m : Mnemonic} {ops : List Operand} {codes : List Byte}
    {copy : Byte → List Operand} {f : Byte → Instr} (hcopies : stringCopies sym m ops = some (codes.map copy))
    (hcopy : ∀ b, assemble sym m (copy b) = some (f b)) : assembleLine sym m ops = some (codes.map f) := by
  have hf : assemble sym m ∘ copy = fun b => some (f b) := funext hcopy
  rw [assembleLine, copiesOf, hcopies, Option.getD_some, List.mapM_map, hf]
  exact List.mapM_pure

/-- Settles O60: each copy of the line holds one character's code in the place of the string. -/
theorem stringExpandsPerCharacter : Obligations.StringExpandsPerCharacter := by
  intro sym n codes p x hn
  constructor
  · refine assembleLine_copies (copy := fun b => [.value (.code n b), plainValue 1 p.toNat]) ?_ fun b => ?_
    · rw [stringCopies, hn, Option.map_some]
    · exact assemble_outputk sym (bits_code sym n b) (bits_port sym p)
  · refine assembleLine_copies (copy := fun b => [plainReg x, .value (.code n b)]) ?_ fun b => ?_
    · rw [stringCopies, hn, Option.map_some]
    · exact assemble_loadReturn sym (bits_code sym n b) x

end Sys2Proof.Asm
end

section
/-! PROOFS. LOAD, STAR and REGBANK (40_register_loading_and_banks.md). Both forms of LOAD, and STAR, end by one register write
and `pc + 1`, of the active bank or of the other; REGBANK ends by the write of `bank` and `pc + 1`. What each of these two
operations changes and leaves alone is said once, for every bank, and the words are those the encoder writes. -/

namespace Sys2Proof

/-- The inactive bank (00_scope.md R11) as a statement about STAR writes it out. -/
theorem Bank.other_eq_ite (b : Bank) : b.other = if b = .A then .B else .A := by cases b <;> rfl

end Sys2Proof

namespace Sys2Proof.Machine

/-! ## One register write -/

theorem exec_loadRR (x y : RegNum) (s : State) :
    exec (.loadRR x y) s = .next (s.setReg s.bank x (s.reg s.bank y)).advance := rfl

theorem exec_loadRK (x : RegNum) (kk : Byte) (s : State) :
    exec (.loadRK x kk) s = .next (s.setReg s.bank x kk).advance := rfl

theorem exec_star (x y : RegNum) (s : State) :
    exec (.star x y) s = .next (s.setReg s.bank.other x (s.reg s.bank y)).advance := rfl

theorem State.setReg_advance_onlyRegister (s : State) (b : Bank) (x : RegNum) (v : Byte) :
    OnlyRegister s (s.setReg b x v).advance b x v := by
  intro b' r
  rw [State.advance_eq, State.goto_reg, State.reg_setReg]

theorem State.setReg_advance_sameFlags (s : State) (b : Bank) (x : RegNum) (v : Byte) :
    SameFlags s (s.setReg b x v).advance := by
  simp [SameFlags, State.advance_eq]

theorem State.setReg_advance_onlyRegistersAndFlags (s : State) (b : Bank) (x : RegNum) (v : Byte) :
    OnlyRegistersAndFlags s (s.setReg b x v).advance := by
  simp [OnlyRegistersAndFlags, GoesOn, SameControl, SameScratchPad, NoPortEvent, OnlyTimePasses, SameSurroundings,
    TakesTwoCycles, State.advance_eq]

/-- Settles O9: both forms write the active bank; their words are the encoder's. -/
theorem loadWritesOneRegister : Obligations.LoadWritesOneRegister := by
  intro s x y kk
  have writes (v : Byte) := s.setReg_advance_onlyRegister s.bank x v
  have flags (v : Byte) := s.setReg_advance_sameFlags s.bank x v
  have frame (v : Byte) := s.setReg_advance_onlyRegistersAndFlags s.bank x v
  exact ⟨decodeInvertsEncode (.loadRR x y), ⟨_, exec_loadRR x y s, writes _, flags _, frame _⟩,
    decodeInvertsEncode (.loadRK x kk), ⟨_, exec_loadRK x kk s, writes _, flags _, frame _⟩⟩

/-- Settles O10: the same register write as LOAD's, to the bank that is not active. -/
theorem starWritesInactiveBank : Obligations.StarWritesInactiveBank := by
  intro s x y
  rw [← s.bank.other_eq_ite]
  exact ⟨decodeInvertsEncode (.star x y), _, exec_star x y s, s.setReg_advance_onlyRegister _ x _,
    s.setReg_advance_sameFlags _ x _, s.setReg_advance_onlyRegistersAndFlags _ x _⟩

/-! ## The choice of the active bank -/

/-- Bank `b` is active, `pc` goes on, nothing else changes: no register of either bank (R103, R104);
`State.setBank_advance_onlySelectsBank` ties it to REGBANK's operation. -/
def OnlySelectsBank (s t : State) (b : Bank) : Prop :=
  t.bank = b ∧ SameRegisters s t ∧ SameFlags s t ∧ t.ie = s.ie ∧ t.stack = s.stack ∧ SameScratchPad s t ∧
    NoPortEvent s t ∧ OnlyTimePasses s t ∧ GoesOn s t

theorem exec_regbankA (s : State) : exec .regbankA s = .next (s.setBank .A).advance := rfl

theorem exec_regbankB (s : State) : exec .regbankB s = .next (s.setBank .B).advance := rfl

theorem State.setBank_advance_onlySelectsBank (s : State) (b : Bank) : OnlySelectsBank s (s.setBank b).advance b := by
  simp [OnlySelectsBank, SameRegisters, SameFlags, SameScratchPad, NoPortEvent, OnlyTimePasses, SameSurroundings,
    TakesTwoCycles, GoesOn, State.advance_eq]

/-- Settles O11: selecting either bank is one operation, which writes no register. -/
theorem regbankSelectsBank : Obligations.RegbankSelectsBank := fun s =>
  ⟨decodeInvertsEncode .regbankA, decodeInvertsEncode .regbankB,
    ⟨_, exec_regbankA s, s.setBank_advance_onlySelectsBank .A⟩,
    ⟨_, exec_regbankB s, s.setBank_advance_onlySelectsBank .B⟩⟩

end Sys2Proof.Machine
end

section
/-! PROOFS. AND, OR and XOR (41_logical.md). All six forms end by the shared operation that writes a result and its two flags
(`State.finish`); what that operation writes and leaves alone is said once, for every result, and then for the results of
these instructions, whose `Z` is read off the value and whose `C` is 0. -/

namespace Sys2Proof.Machine

/-! ## Writing a result and its flags -/

/-- The operation that ends every instruction with a result in `sX` writes that register, both flags and `pc`, and no more. -/
theorem State.finish_computes (s : State) (x : RegNum) (r : Result) :
    Computes s (s.finish x r) x r.value r.z r.c := by
  refine ⟨fun b' r' => ?_, ?_, ?_⟩
  · rw [State.finish, State.advance_eq, State.goto_reg, State.setFlags_reg, State.setX_eq, State.reg_setReg]
  · simp [FlagsAre, State.finish, State.advance_eq]
  · simp [OnlyRegistersAndFlags, GoesOn, SameControl, SameScratchPad, NoPortEvent, OnlyTimePasses, SameSurroundings,
      TakesTwoCycles, State.finish, State.advance_eq, State.setX_eq]

/-- R110: `Z` says whether the result is zero, `C` is cleared whatever it was. -/
theorem State.finish_logicalResult_computes (s : State) (x : RegNum) (v : Byte) :
    Computes s (s.finish x (logicalResult v)) x v (decide (v = 0x00#8)) false :=
  s.finish_computes x (logicalResult v)

/-! ## The six forms -/

theorem exec_andRR (x y : RegNum) (s : State) :
    exec (.andRR x y) s = .next (s.finish x (logicalResult (s.reg s.bank x &&& s.reg s.bank y))) := rfl

theorem exec_andRK (x : RegNum) (kk : Byte) (s : State) :
    exec (.andRK x kk) s = .next (s.finish x (logicalResult (s.reg s.bank x &&& kk))) := rfl

theorem exec_orRR (x y : RegNum) (s : State) :
    exec (.orRR x y) s = .next (s.finish x (logicalResult (s.reg s.bank x ||| s.reg s.bank y))) := rfl

theorem exec_orRK (x : RegNum) (kk : Byte) (s : State) :
    exec (.orRK x kk) s = .next (s.finish x (logicalResult (s.reg s.bank x ||| kk))) := rfl

theorem exec_xorRR (x y : RegNum) (s : State) :
    exec (.xorRR x y) s = .next (s.finish x (logicalResult (s.reg s.bank x ^^^ s.reg s.bank y))) := rfl

theorem exec_xorRK (x : RegNum) (kk : Byte) (s : State) :
    exec (.xorRK x kk) s = .next (s.finish x (logicalResult (s.reg s.bank x ^^^ kk))) := rfl

/-- Settles O12: the six words are the encoder's, and each form finishes with the logical result of its own operation. -/
theorem logicalInstructionsCompute : Obligations.LogicalInstructionsCompute := by
  intro s x y kk a b
  have computes (v : Byte) := s.finish_logicalResult_computes x v
  exact ⟨⟨decodeInvertsEncode (.andRR x y), decodeInvertsEncode (.andRK x kk), decodeInvertsEncode (.orRR x y),
      decodeInvertsEncode (.orRK x kk), decodeInvertsEncode (.xorRR x y), decodeInvertsEncode (.xorRK x kk)⟩,
    ⟨_, exec_andRR x y s, computes (a &&& b)⟩, ⟨_, exec_andRK x kk s, computes (a &&& kk)⟩,
    ⟨_, exec_orRR x y s, computes (a ||| b)⟩, ⟨_, exec_orRK x kk s, computes (a ||| kk)⟩,
    ⟨_, exec_xorRR x y s, computes (a ^^^ b)⟩, ⟨_, exec_xorRK x kk s, computes (a ^^^ kk)⟩⟩

end Sys2Proof.Machine
end

section
/-! PROOFS. ADD, ADDCY, SUB and SUBCY (42_arithmetic.md). Each ends by writing a result of the old byte and the operand, so
one law per operation covers both its forms. ADD and SUB are ADDCY and SUBCY from `Z` 1 and `C` 0; a chain of them keeps one
equation between the whole values, in which `σ` is 1 for addition and -1 for subtraction. -/

namespace Sys2Proof.Machine

/-! ## The results -/

theorem isZero_eq_decide_toNat (v : Byte) : isZero v = decide (v.toNat = 0) :=
  decide_eq_decide.2 BitVec.toNat_inj.symm

theorem isZero_ofNat (n : Nat) : isZero (BitVec.ofNat 8 n) = decide (n % 256 = 0) := by
  rw [isZero_eq_decide_toNat, BitVec.toNat_ofNat]

theorem toNat_ofInt_byte (d : Int) : ((BitVec.ofInt 8 d).toNat : Int) = d % 256 := by
  rw [BitVec.toNat_ofInt]
  omega

theorem isZero_ofInt (d : Int) : isZero (BitVec.ofInt 8 d) = decide (d % 256 = 0) := by
  rw [isZero_eq_decide_toNat, ← toNat_ofInt_byte, decide_eq_decide, Int.natCast_eq_zero]

/-- Narrowing the integer difference is subtraction of bytes (00_scope.md R10). -/
theorem ofInt_diffOf (a b : Byte) (cin : Bool) :
    BitVec.ofInt 8 (diffOf a b cin) = a - b - BitVec.ofNat 8 cin.toNat := by
  cases cin with
  | false | true => simp [diffOf, Int.sub_eq_add_neg, BitVec.ofInt_add, BitVec.ofInt_neg, BitVec.sub_eq_add_neg]

theorem diffOf_neg_iff (a b : Byte) (cin : Bool) : diffOf a b cin < 0 ↔ a.toNat < b.toNat + cin.toNat := by
  unfold diffOf
  omega

/-- ADD is ADDCY with no carry coming in and `Z` set. -/
theorem addResult_eq_addcyResult (a b : Byte) : addResult a b = addcyResult a b true false := by
  simp [addResult, addcyResult]

/-- SUB is SUBCY with no borrow coming in and `Z` set. -/
theorem subResult_eq_subcyResult (a b : Byte) : subResult a b = subcyResult a b true false := by
  simp [subResult, subcyResult]

theorem addcyResult_eq (a b : Byte) (zin cin : Bool) :
    addcyResult a b zin cin = ⟨BitVec.ofNat 8 (a.toNat + b.toNat + cin.toNat),
      decide ((a.toNat + b.toNat + cin.toNat) % 256 = 0) && zin, decide (a.toNat + b.toNat + cin.toNat > 0xFF)⟩ := by
  simp only [addcyResult, isZero_ofNat]
  rfl

theorem addResult_eq (a b : Byte) :
    addResult a b = ⟨BitVec.ofNat 8 (a.toNat + b.toNat), decide ((a.toNat + b.toNat) % 256 = 0),
      decide (a.toNat + b.toNat > 0xFF)⟩ := by
  rw [addResult_eq_addcyResult, addcyResult_eq, Bool.and_true]
  rfl

theorem subcyResult_eq (a b : Byte) (zin cin : Bool) :
    subcyResult a b zin cin = ⟨a - b - BitVec.ofNat 8 cin.toNat,
      decide (((a.toNat : Int) - b.toNat - cin.toNat) % 256 = 0) && zin,
      decide (a.toNat < b.toNat + cin.toNat)⟩ := by
  simp only [subcyResult, isZero_ofInt, diffOf_neg_iff]
  rw [ofInt_diffOf, diffOf]

theorem subResult_eq (a b : Byte) :
    subResult a b = ⟨a - b, decide (a.toNat = b.toNat), decide (a.toNat < b.toNat)⟩ := by
  have hz : ((a.toNat : Int) - b.toNat) % 256 = 0 ↔ a.toNat = b.toNat := by omega
  rw [subResult_eq_subcyResult, subcyResult_eq]
  simp [hz]

/-! ## The four operations, each in both forms -/

theorem exec_add (x : RegNum) (k : Operand) (s : State) :
    exec (k.add x) s = .next (s.finish x (addResult (s.x x) (k.value s))) := by cases k <;> rfl

theorem exec_addcy (x : RegNum) (k : Operand) (s : State) :
    exec (k.addcy x) s = .next (s.finish x (addcyResult (s.x x) (k.value s) s.z s.c)) := by cases k <;> rfl

theorem exec_sub (x : RegNum) (k : Operand) (s : State) :
    exec (k.sub x) s = .next (s.finish x (subResult (s.x x) (k.value s))) := by cases k <;> rfl

theorem exec_subcy (x : RegNum) (k : Operand) (s : State) :
    exec (k.subcy x) s = .next (s.finish x (subcyResult (s.x x) (k.value s) s.z s.c)) := by cases k <;> rfl

/-- An instruction that ends by writing the result `r` computes `r`'s value and flags. -/
theorem computes_of_exec_finish {i : Instr} {s : State} {x : RegNum} {r r' : Result}
    (h : exec i s = .next (s.finish x r)) (hr : r = r') :
    ∃ t, exec i s = .next t ∧ Computes s t x r'.value r'.z r'.c :=
  ⟨_, h, hr ▸ s.finish_computes x r⟩

/-- Settles O13: each form writes the sum; the four words are the encoder's. -/
theorem additionInstructionsCompute : Obligations.AdditionInstructionsCompute := by
  intro s x y kk
  have add (k : Operand) := computes_of_exec_finish (exec_add x k s) (addResult_eq _ _)
  have addcy (k : Operand) := computes_of_exec_finish (exec_addcy x k s) (addcyResult_eq _ _ _ _)
  exact ⟨⟨decodeInvertsEncode (.addRR x y), decodeInvertsEncode (.addRK x kk), decodeInvertsEncode (.addcyRR x y),
      decodeInvertsEncode (.addcyRK x kk)⟩, add (.reg y), add (.const kk), addcy (.reg y), addcy (.const kk)⟩

/-- Settles O14: each form writes the difference; the four words are the encoder's. -/
theorem subtractionInstructionsCompute : Obligations.SubtractionInstructionsCompute := by
  intro s x y kk
  have sub (k : Operand) := computes_of_exec_finish (exec_sub x k s) (subResult_eq _ _)
  have subcy (k : Operand) := computes_of_exec_finish (exec_subcy x k s) (subcyResult_eq _ _ _ _)
  exact ⟨⟨decodeInvertsEncode (.subRR x y), decodeInvertsEncode (.subRK x kk), decodeInvertsEncode (.subcyRR x y),
      decodeInvertsEncode (.subcyRK x kk)⟩, sub (.reg y), sub (.const kk), subcy (.reg y), subcy (.const kk)⟩

/-! ## One byte of a whole -/

/-- A result that adds `σ` times the operand and the carry coming in, and carries out `σ` times 256; its `Z` also asks for
the `Z` coming in. `addcyResult_carries` and `subcyResult_carries` tie it to the model's results. -/
structure Carries (σ : Int) (f : Byte → Byte → Bool → Bool → Result) : Prop where
  value : ∀ a b z c, ((f a b z c).value.toNat : Int) + σ * (256 * (f a b z c).c.toNat) = a.toNat + σ * (b.toNat + c.toNat)
  zero : ∀ a b z c, (f a b z c).z = (decide ((f a b z c).value.toNat = 0) && z)

theorem addcyResult_carries : Carries 1 addcyResult where
  value a b z c := by
    have ha := a.isLt
    have hb := b.isLt
    have hc := c.toNat_le
    simp only [addcyResult, sumOf, BitVec.toNat_ofNat]
    by_cases h : a.toNat + b.toNat + c.toNat > 0xFF
    · simp only [h, decide_true, Bool.toNat_true]
      omega
    · simp only [h, decide_false, Bool.toNat_false]
      omega
  zero a b z c := by rw [← isZero_eq_decide_toNat]; rfl

theorem subcyResult_carries : Carries (-1) subcyResult where
  value a b z c := by
    have ha := a.isLt
    have hb := b.isLt
    have hc := c.toNat_le
    simp only [subcyResult, toNat_ofInt_byte]
    unfold diffOf
    by_cases h : (a.toNat : Int) - b.toNat - c.toNat < 0
    · simp only [h, decide_true, Bool.toNat_true]
      omega
    · simp only [h, decide_false, Bool.toNat_false]
      omega
  zero a b z c := by rw [← isZero_eq_decide_toNat]; rfl

/-! ## What a write of one destination leaves for the later bytes -/

theorem State.finish_reg_same (s : State) (x : RegNum) (r : Result) : (s.finish x r).reg s.bank x = r.value :=
  ((s.finish_computes x r).1 s.bank x).trans (if_pos ⟨rfl, rfl⟩)

theorem State.finish_reg_of_ne (s : State) {x y : RegNum} (r : Result) (h : x ≠ y) :
    (s.finish x r).reg s.bank y = s.reg s.bank y :=
  ((s.finish_computes x r).1 s.bank y).trans (if_neg fun hy => h hy.2.symm)

theorem Operand.value_finish (s : State) {x : RegNum} (r : Result) {k : Operand} (h : k ≠ .reg x) :
    k.value (s.finish x r) = k.value s := by
  cases k with
  | reg y => exact s.finish_reg_of_ne r fun hxy => h (congrArg Operand.reg hxy.symm)
  | const kk => rfl

/-! ## The whole value -/

theorem bytesValue_lt : (l : List Byte) → bytesValue l < 256 ^ l.length
  | [] => Nat.one_pos
  | b :: rest => by
    have hb := b.isLt
    have hrest := bytesValue_lt rest
    rw [bytesValue, List.length_cons, Nat.pow_succ]
    omega

/-- The registers of bank `b` that are the destinations of `p`, as one value. -/
def destValue (b : Bank) (p : List (RegNum × Operand)) (t : State) : Nat := bytesValue (p.map fun q => t.reg b q.1)

/-- The second operands of `p`, as one value. -/
def operandValue (p : List (RegNum × Operand)) (t : State) : Nat := bytesValue (p.map fun q => q.2.value t)

theorem destValue_lt (b : Bank) (p : List (RegNum × Operand)) (t : State) : destValue b p t < 256 ^ p.length :=
  (bytesValue_lt _).trans_eq (by rw [List.length_map])

theorem operandValue_lt (p : List (RegNum × Operand)) (t : State) : operandValue p t < 256 ^ p.length :=
  (bytesValue_lt _).trans_eq (by rw [List.length_map])

/-- From `s` to `t`, with `z` and `c` coming in, `σ` times the second operands and the carry was added to the destinations of
`p` as whole values, and no other register of the active bank changed; `execAll_wholeStep` ties it to the model. -/
structure WholeStep (σ : Int) (p : List (RegNum × Operand)) (s : State) (z c : Bool) (t : State) : Prop where
  value : (destValue s.bank p t : Int) + σ * (256 ^ p.length * t.c.toNat) =
    destValue s.bank p s + σ * (operandValue p s + c.toNat)
  zero : t.z = (decide (destValue s.bank p t = 0) && z)
  frame : ∀ r, (∀ q ∈ p, q.1 ≠ r) → t.reg s.bank r = s.reg s.bank r

theorem WholeStep.nil (σ : Int) (s : State) : WholeStep σ [] s s.z s.c s where
  value := by simp [destValue, operandValue, bytesValue]
  zero := by simp [destValue, bytesValue]
  frame _ _ := rfl

/-- The higher bytes read as before after the first byte's write, so the step of the whole is that write and the step of the
higher bytes. -/
theorem WholeStep.cons {σ : Int} {f : Byte → Byte → Bool → Bool → Result} (hf : Carries σ f) {x : RegNum} {k : Operand}
    {rest : List (RegNum × Operand)} {s t : State} {z c : Bool} {r : Result}
    (hr : f (s.reg s.bank x) (k.value s) z c = r) (hx : ∀ q ∈ rest, x ≠ q.1 ∧ q.2 ≠ .reg x)
    (h : WholeStep σ rest (s.finish x r) r.z r.c t) : WholeStep σ ((x, k) :: rest) s z c t := by
  obtain ⟨hvalue, hzero, hframe⟩ := h
  have hrvalue := hf.value (s.reg s.bank x) (k.value s) z c
  have hrzero := hf.zero (s.reg s.bank x) (k.value s) z c
  rw [hr] at hrvalue hrzero
  have hdest : destValue s.bank rest (s.finish x r) = destValue s.bank rest s :=
    congrArg bytesValue (List.map_congr_left fun q hq => s.finish_reg_of_ne r (hx q hq).1)
  have hoperand : operandValue rest (s.finish x r) = operandValue rest s :=
    congrArg bytesValue (List.map_congr_left fun q hq => Operand.value_finish s r (hx q hq).2)
  have hhead : t.reg s.bank x = r.value :=
    (hframe x fun q hq => (hx q hq).1.symm).trans (s.finish_reg_same x r)
  have hbank : (s.finish x r).bank = s.bank := rfl
  rw [hbank, hdest, hoperand] at hvalue
  rw [hbank] at hzero
  refine ⟨?_, ?_, fun y hy => ?_⟩
  · simp only [destValue, operandValue, List.map_cons, bytesValue, List.length_cons, hhead] at hvalue ⊢
    push_cast
    linear_combination hrvalue + 256 * hvalue
  · rw [hzero, hrzero, ← Bool.and_assoc, ← Bool.decide_and]
    simp only [destValue, List.map_cons, bytesValue, hhead]
    congr 2
    exact propext (by omega)
  · obtain ⟨hxy, hrest⟩ := List.forall_mem_cons.1 hy
    exact (hframe y hrest).trans (s.finish_reg_of_ne r hxy)

/-- A first instruction that writes a result from whichever flags `z` and `c`, then one on each higher byte that writes a
result from the flags it finds, take the step of the whole (R129). -/
theorem execAll_wholeStep {σ : Int} {f : Byte → Byte → Bool → Bool → Result} (hf : Carries σ f)
    {op : RegNum × Operand → Instr}
    (hop : ∀ q s, exec (op q) s = .next (s.finish q.1 (f (s.x q.1) (q.2.value s) s.z s.c)))
    {x : RegNum} {k : Operand} {rest : List (RegNum × Operand)} {z c : Bool}
    (hp : ((x, k) :: rest).Pairwise (fun q q' => q.1 ≠ q'.1 ∧ q'.2 ≠ .reg q.1)) {first : Instr} {s : State}
    (hfirst : exec first s = .next (s.finish x (f (s.x x) (k.value s) z c))) :
    ∃ t, execAll (first :: rest.map op) s = .next t ∧ WholeStep σ ((x, k) :: rest) s z c t := by
  obtain ⟨hx, hrest⟩ := List.pairwise_cons.1 hp
  rw [execAll_cons_of_next hfirst]
  induction rest generalizing x k z c first s with
  | nil => exact ⟨_, rfl, (WholeStep.nil σ _).cons hf rfl hx⟩
  | cons q rest ih =>
    obtain ⟨hq, htail⟩ := List.pairwise_cons.1 hrest
    obtain ⟨t, hrun, hstep⟩ := ih hrest (hop q (s.finish x _)) hq htail
    exact ⟨t, (execAll_cons_of_next (hop q _) _).trans hrun, hstep.cons hf rfl hx⟩

/-! ## What the step of the whole says of an addition and of a subtraction -/

section
variable {σ : Int} {p : List (RegNum × Operand)} {s t : State}

theorem WholeStep.value_eq (h : WholeStep σ p s true false t) :
    (destValue s.bank p t : Int) + σ * (256 ^ p.length * t.c.toNat) = destValue s.bank p s + σ * operandValue p s := by
  simpa using h.value

theorem WholeStep.destValue_eq_emod (h : WholeStep σ p s true false t) :
    (destValue s.bank p t : Int) = (destValue s.bank p s + σ * operandValue p s) % 256 ^ p.length := by
  have hlt : (destValue s.bank p t : Int) < 256 ^ p.length := by exact_mod_cast destValue_lt s.bank p t
  have hsum : (destValue s.bank p s : Int) + σ * operandValue p s =
      destValue s.bank p t + 256 ^ p.length * (σ * t.c.toNat) := by
    linear_combination -h.value_eq
  rw [hsum, Int.add_mul_emod_self_left, Int.emod_eq_of_lt (Int.natCast_nonneg _) hlt]

theorem WholeStep.z_eq (h : WholeStep σ p s true false t) : t.z = decide (destValue s.bank p t = 0) :=
  h.zero.trans (Bool.and_true _)

theorem WholeStep.add_value (h : WholeStep 1 p s true false t) :
    destValue s.bank p t + 256 ^ p.length * t.c.toNat = destValue s.bank p s + operandValue p s := by
  have hvalue := h.value_eq
  rw [one_mul, one_mul] at hvalue
  exact_mod_cast hvalue

theorem WholeStep.sub_value (h : WholeStep (-1) p s true false t) :
    destValue s.bank p t + operandValue p s = destValue s.bank p s + 256 ^ p.length * t.c.toNat := by
  zify
  linear_combination h.value_eq

theorem WholeStep.add_c_eq (h : WholeStep 1 p s true false t) :
    t.c = decide (256 ^ p.length ≤ destValue s.bank p s + operandValue p s) := by
  have hvalue := h.add_value
  have hlt := destValue_lt s.bank p t
  cases hc : t.c with
  | false => exact (decide_eq_false (by rw [hc, Bool.toNat_false] at hvalue; omega)).symm
  | true => exact (decide_eq_true (by rw [hc, Bool.toNat_true] at hvalue; omega)).symm

/-- The borrow of the whole; without one the difference is zero where the values are equal, with one it is never zero. -/
theorem WholeStep.sub_flags_eq (h : WholeStep (-1) p s true false t) :
    t.c = decide (destValue s.bank p s < operandValue p s) ∧
      t.z = decide (destValue s.bank p s = operandValue p s) := by
  have hvalue := h.sub_value
  have hlt := destValue_lt s.bank p t
  have hlt' := operandValue_lt p s
  rw [h.z_eq]
  cases hc : t.c with
  | false =>
    rw [hc, Bool.toNat_false] at hvalue
    exact ⟨(decide_eq_false (by omega)).symm, decide_eq_decide.2 (by omega)⟩
  | true =>
    rw [hc, Bool.toNat_true] at hvalue
    exact ⟨(decide_eq_true (by omega)).symm, decide_eq_decide.2 (by omega)⟩

end

/-- Settles O15: ADD is ADDCY, and SUB is SUBCY, with `Z` 1 and `C` 0 coming in, so each chain takes the step of the whole. -/
theorem multiByteArithmeticOnRegisters : Obligations.MultiByteArithmeticOnRegisters := by
  intro s x k rest hp p a b
  constructor
  · have hfirst := addResult_eq_addcyResult (s.x x) (k.value s) ▸ exec_add x k s
    obtain ⟨t, hrun, hstep⟩ := execAll_wholeStep addcyResult_carries (fun q => exec_addcy q.1 q.2) hp hfirst
    have hsum : destValue s.bank p t = (a + b) % 256 ^ p.length := by
      have hmod := hstep.destValue_eq_emod
      rw [one_mul] at hmod
      exact_mod_cast hmod
    exact ⟨t, hrun, hsum, hstep.add_c_eq, hsum ▸ hstep.z_eq, hstep.frame⟩
  · have hfirst := subResult_eq_subcyResult (s.x x) (k.value s) ▸ exec_sub x k s
    obtain ⟨t, hrun, hstep⟩ := execAll_wholeStep subcyResult_carries (fun q => exec_subcy q.1 q.2) hp hfirst
    have hdiff : (destValue s.bank p t : Int) = ((a : Int) - b) % 256 ^ p.length := by
      rw [hstep.destValue_eq_emod, neg_one_mul, ← sub_eq_add_neg]
      rfl
    obtain ⟨hc, hz⟩ := hstep.sub_flags_eq
    exact ⟨t, hrun, hdiff, hc, hz, hstep.frame⟩

end Sys2Proof.Machine
end

section
/-! PROOFS. TEST, TESTCY, COMPARE and COMPARECY (43_test_compare.md). All eight forms end by the shared operation that writes
the flags of a result and discards the result (`State.finishFlags`). No register changes, so a chain of them passes on two
flags only: what the chain leaves is a recursion over pairs of bytes (`chainFlags`), and the whole values come from that. -/

namespace Sys2Proof.Machine

/-! ## Writing the flags of a result -/

@[simp] theorem State.finishFlags_reg (s : State) (r : Result) (b : Bank) (x : RegNum) :
    (s.finishFlags r).reg b x = s.reg b x := rfl

@[simp] theorem State.finishFlags_bank (s : State) (r : Result) : (s.finishFlags r).bank = s.bank := rfl

@[simp] theorem State.finishFlags_z (s : State) (r : Result) : (s.finishFlags r).z = r.z := rfl

@[simp] theorem State.finishFlags_c (s : State) (r : Result) : (s.finishFlags r).c = r.c := rfl

/-- R135: the operation writes both flags and `pc`, and no register of either bank. -/
theorem State.finishFlags_computesFlags (s : State) (r : Result) : ComputesFlags s (s.finishFlags r) r.z r.c := by
  refine ⟨s.finishFlags_reg r, ⟨s.finishFlags_z r, s.finishFlags_c r⟩, ?_⟩
  simp [OnlyRegistersAndFlags, GoesOn, SameControl, SameScratchPad, NoPortEvent, OnlyTimePasses, SameSurroundings,
    TakesTwoCycles, State.finishFlags, State.advance_eq]

/-- An instruction that ends by writing the flags of the result `r` computes `r`'s flags. -/
theorem computesFlags_of_exec_finishFlags {i : Instr} {s : State} {r r' : Result}
    (h : exec i s = .next (s.finishFlags r)) (hr : r = r') :
    ∃ t, exec i s = .next t ∧ ComputesFlags s t r'.z r'.c :=
  ⟨_, h, hr ▸ s.finishFlags_computesFlags r⟩

/-! ## The eight forms -/

theorem exec_testRR (x y : RegNum) (s : State) :
    exec (.testRR x y) s = .next (s.finishFlags (testResult (s.reg s.bank x) (s.reg s.bank y))) := rfl

theorem exec_testRK (x : RegNum) (kk : Byte) (s : State) :
    exec (.testRK x kk) s = .next (s.finishFlags (testResult (s.reg s.bank x) kk)) := rfl

theorem exec_testcyRR (x y : RegNum) (s : State) :
    exec (.testcyRR x y) s = .next (s.finishFlags (testcyResult (s.reg s.bank x) (s.reg s.bank y) s.z s.c)) := rfl

theorem exec_testcyRK (x : RegNum) (kk : Byte) (s : State) :
    exec (.testcyRK x kk) s = .next (s.finishFlags (testcyResult (s.reg s.bank x) kk s.z s.c)) := rfl

theorem exec_compareRR (x y : RegNum) (s : State) :
    exec (.compareRR x y) s = .next (s.finishFlags (subResult (s.reg s.bank x) (s.reg s.bank y))) := rfl

theorem exec_compareRK (x : RegNum) (kk : Byte) (s : State) :
    exec (.compareRK x kk) s = .next (s.finishFlags (subResult (s.reg s.bank x) kk)) := rfl

theorem exec_comparecyRR (x y : RegNum) (s : State) :
    exec (.comparecyRR x y) s = .next (s.finishFlags (subcyResult (s.reg s.bank x) (s.reg s.bank y) s.z s.c)) := rfl

theorem exec_comparecyRK (x : RegNum) (kk : Byte) (s : State) :
    exec (.comparecyRK x kk) s = .next (s.finishFlags (subcyResult (s.reg s.bank x) kk s.z s.c)) := rfl

/-! ## Parity -/

theorem decide_mod_two_eq_one (n : Nat) : decide (n % 2 = 1) = n.bodd := by
  rw [Nat.mod_two_of_bodd]
  cases n.bodd with
  | false | true => rfl

theorem bodd_toNat (b : Bool) : b.toNat.bodd = b := by
  cases b with
  | false | true => rfl

theorem bodd_length_filter {ι : Type} (p : ι → Bool) (l : List ι) :
    (l.filter p).length.bodd = l.foldr (fun i odd => p i ^^ odd) false := by
  induction l with
  | nil => exact Nat.bodd_zero
  | cons i rest ih =>
    rw [List.foldr_cons, ← ih]
    cases h : p i with
    | false => rw [List.filter_cons_of_neg (by simp [h]), Bool.false_xor]
    | true => rw [List.filter_cons_of_pos h, List.length_cons, Nat.bodd_succ, Bool.true_xor]

/-- The exclusive or of the bits says whether the number of 1 bits is odd. -/
theorem parity_eq_bodd_onesIn (v : Byte) : parity v = (onesIn v).bodd := by
  have hones : onesIn v = ([0, 1, 2, 3, 4, 5, 6, 7].filter v.getLsbD).length := rfl
  rw [hones, bodd_length_filter]
  simp [parity]

/-! ## The results of TEST and TESTCY -/

/-- TEST is TESTCY with no carry coming in and `Z` set. -/
theorem testResult_eq_testcyResult (a b : Byte) : testResult a b = testcyResult a b true false := by
  simp [testResult, testcyResult]

theorem testcyResult_eq (a b : Byte) (zin cin : Bool) :
    testcyResult a b zin cin =
      ⟨a &&& b, decide (a &&& b = 0x00#8) && zin, decide ((onesIn (a &&& b) + cin.toNat) % 2 = 1)⟩ := by
  rw [decide_mod_two_eq_one, Nat.bodd_add, bodd_toNat, ← parity_eq_bodd_onesIn]
  rfl

theorem testResult_eq (a b : Byte) :
    testResult a b = ⟨a &&& b, decide (a &&& b = 0x00#8), decide (onesIn (a &&& b) % 2 = 1)⟩ := by
  rw [testResult_eq_testcyResult, testcyResult_eq, Bool.and_true]
  rfl

/-! ## One instruction -/

/-- Settles O16: each form writes the flags of the masked value; the four words are the encoder's. -/
theorem testInstructionsSetFlags : Obligations.TestInstructionsSetFlags := by
  intro s x y kk a b
  exact ⟨⟨decodeInvertsEncode (.testRR x y), decodeInvertsEncode (.testRK x kk), decodeInvertsEncode (.testcyRR x y),
      decodeInvertsEncode (.testcyRK x kk)⟩,
    computesFlags_of_exec_finishFlags (exec_testRR x y s) (testResult_eq a b),
    computesFlags_of_exec_finishFlags (exec_testRK x kk s) (testResult_eq a kk),
    computesFlags_of_exec_finishFlags (exec_testcyRR x y s) (testcyResult_eq a b s.z s.c),
    computesFlags_of_exec_finishFlags (exec_testcyRK x kk s) (testcyResult_eq a kk s.z s.c)⟩

/-- Settles O17: each form writes the flags of the difference, as SUB and SUBCY do; the four words are the encoder's. -/
theorem compareInstructionsSetFlags : Obligations.CompareInstructionsSetFlags := by
  intro s x y kk a b k cin
  exact ⟨⟨decodeInvertsEncode (.compareRR x y), decodeInvertsEncode (.compareRK x kk),
      decodeInvertsEncode (.comparecyRR x y), decodeInvertsEncode (.comparecyRK x kk)⟩,
    computesFlags_of_exec_finishFlags (exec_compareRR x y s) (subResult_eq _ _),
    computesFlags_of_exec_finishFlags (exec_compareRK x kk s) (subResult_eq _ _),
    computesFlags_of_exec_finishFlags (exec_comparecyRR x y s) (subcyResult_eq _ _ _ _),
    computesFlags_of_exec_finishFlags (exec_comparecyRK x kk s) (subcyResult_eq _ _ _ _)⟩

/-! ## A chain of instructions that write flags only -/

/-- `Z` and `C` after the results `f` of pairs of bytes, each from the flags the one before left, with `z` and `c` coming in;
`execAll_chainFlags` ties it to the model. -/
def chainFlags (f : Byte → Byte → Bool → Bool → Result) : List (Byte × Byte) → Bool → Bool → Bool × Bool
  | [], z, c => (z, c)
  | (a, b) :: rest, z, c => chainFlags f rest (f a b z c).z (f a b z c).c

/-- The bytes a chain on `p` works on: each register of the active bank with its constant. -/
def chainBytes (s : State) (p : List (RegNum × Byte)) : List (Byte × Byte) := p.map fun q => (s.reg s.bank q.1, q.2)

/-- A first instruction from whichever flags `z` and `c`, then one on each higher byte from the flags it finds, leave the
flags of the chain and every register as it was. -/
theorem execAll_chainFlags {f : Byte → Byte → Bool → Bool → Result} {op : RegNum × Byte → Instr}
    (hop : ∀ q s, exec (op q) s = .next (s.finishFlags (f (s.reg s.bank q.1) q.2 s.z s.c)))
    {x : RegNum} {kk : Byte} (rest : List (RegNum × Byte)) {z c : Bool} {first : Instr} {s : State}
    (hfirst : exec first s = .next (s.finishFlags (f (s.reg s.bank x) kk z c))) :
    ∃ t, execAll (first :: rest.map op) s = .next t ∧
      (t.z, t.c) = chainFlags f (chainBytes s ((x, kk) :: rest)) z c ∧ SameRegisters s t := by
  rw [execAll_cons_of_next hfirst]
  induction rest generalizing x kk z c first s with
  | nil => exact ⟨_, rfl, rfl, s.finishFlags_reg _⟩
  | cons q rest ih =>
    obtain ⟨t, hrun, hflags, hregs⟩ := ih (hop q (s.finishFlags _))
    exact ⟨t, (execAll_cons_of_next (hop q _) _).trans hrun, hflags, hregs⟩

/-! ## The whole value -/

theorem toNat_decide (p : Prop) [Decidable p] : (decide p).toNat = if p then 1 else 0 := apply_ite Bool.toNat p true false

/-- The borrow of the whole. -/
theorem chainFlags_subcyResult_c (l : List (Byte × Byte)) (z c : Bool) :
    (chainFlags subcyResult l z c).2 =
      decide (bytesValue (l.map Prod.fst) < bytesValue (l.map Prod.snd) + c.toNat) := by
  induction l generalizing z c with
  | nil => cases c with
    | false | true => rfl
  | cons p rest ih =>
    obtain ⟨a, b⟩ := p
    have ha := a.isLt
    have hb := b.isLt
    have hc := c.toNat_le
    rw [chainFlags, ih, subcyResult_eq]
    simp only [List.map_cons, bytesValue]
    rw [decide_eq_decide, toNat_decide]
    split <;> omega

/-- The difference of the whole, narrowed to `l.length` bytes, is zero where the difference is 0 or minus `256 ^ l.length`. -/
theorem chainFlags_subcyResult_z (l : List (Byte × Byte)) (z c : Bool) :
    (chainFlags subcyResult l z c).1 =
      (decide (bytesValue (l.map Prod.fst) = bytesValue (l.map Prod.snd) + c.toNat ∨
        bytesValue (l.map Prod.fst) + 256 ^ l.length = bytesValue (l.map Prod.snd) + c.toNat) && z) := by
  induction l generalizing z c with
  | nil => cases c with
    | false | true => simp [chainFlags, bytesValue]
  | cons p rest ih =>
    obtain ⟨a, b⟩ := p
    have ha := a.isLt
    have hb := b.isLt
    have hc := c.toNat_le
    rw [chainFlags, ih, subcyResult_eq, ← Bool.and_assoc, ← Bool.decide_and]
    simp only [List.map_cons, bytesValue, List.length_cons, Nat.pow_succ]
    congr 1
    rw [decide_eq_decide, toNat_decide]
    split <;> omega

/-- From `Z` 1 and no borrow: the modulus is out of reach, since the second value is below it. -/
theorem chainFlags_subcyResult (l : List (Byte × Byte)) :
    chainFlags subcyResult l true false =
      (decide (bytesValue (l.map Prod.fst) = bytesValue (l.map Prod.snd)),
        decide (bytesValue (l.map Prod.fst) < bytesValue (l.map Prod.snd))) := by
  have hlt := bytesValue_lt (l.map Prod.snd)
  rw [List.length_map] at hlt
  refine Prod.ext ?_ (chainFlags_subcyResult_c l true false)
  rw [chainFlags_subcyResult_z, Bool.and_true, decide_eq_decide, Bool.toNat_false]
  omega

theorem chainFlags_testcyResult (l : List (Byte × Byte)) (z c : Bool) :
    chainFlags testcyResult l z c =
      (decide (∀ v ∈ l.map fun p => p.1 &&& p.2, v = 0x00#8) && z,
        decide ((((l.map fun p => p.1 &&& p.2).map onesIn).sum + c.toNat) % 2 = 1)) := by
  induction l generalizing z c with
  | nil => simp [chainFlags, decide_mod_two_eq_one, bodd_toNat]
  | cons p rest ih =>
    rw [chainFlags, ih, testcyResult_eq]
    simp only [List.map_cons, List.forall_mem_cons, List.sum_cons, decide_mod_two_eq_one, Nat.bodd_add, bodd_toNat,
      Bool.decide_and]
    rw [Bool.and_assoc, Bool.and_left_comm, Bool.xor_assoc, Bool.xor_left_comm]

/-- Settles O18: COMPARE is COMPARECY with `Z` 1 and `C` 0 coming in, so the chain leaves the flags of the whole difference. -/
theorem multiByteComparison : Obligations.MultiByteComparison := by
  intro s x kk rest p a b
  have hfirst := subResult_eq_subcyResult (s.reg s.bank x) kk ▸ exec_compareRK x kk s
  obtain ⟨t, hrun, hflags, hregs⟩ := execAll_chainFlags (fun q => exec_comparecyRK q.1 q.2) rest hfirst
  have ha : bytesValue ((chainBytes s p).map Prod.fst) = a := by rw [chainBytes, List.map_map]; rfl
  have hb : bytesValue ((chainBytes s p).map Prod.snd) = b := by rw [chainBytes, List.map_map]; rfl
  rw [chainFlags_subcyResult, ha, hb] at hflags
  obtain ⟨hz, hc⟩ := Prod.mk.inj hflags
  exact ⟨t, hrun, hz, hc, hregs⟩

/-- Settles O19: TEST is TESTCY with `Z` 1 and `C` 0 coming in, so the chain leaves the flags of all masked bytes. -/
theorem multiByteTest : Obligations.MultiByteTest := by
  intro s x kk rest masked
  have hfirst := testResult_eq_testcyResult (s.reg s.bank x) kk ▸ exec_testRK x kk s
  obtain ⟨t, hrun, hflags, hregs⟩ := execAll_chainFlags (fun q => exec_testcyRK q.1 q.2) rest hfirst
  have hmasked : (chainBytes s ((x, kk) :: rest)).map (fun p => p.1 &&& p.2) = masked := by
    rw [chainBytes, List.map_map]; rfl
  rw [chainFlags_testcyResult, hmasked] at hflags
  obtain ⟨hz, hc⟩ := Prod.mk.inj hflags
  exact ⟨t, hrun, hz.trans (Bool.and_true _), hc, hregs⟩

end Sys2Proof.Machine
end

section
/-! PROOFS. The ten shifts and rotates (44_shift_rotate.md R150). Each ends by writing the old byte moved by one bit, with
one bit coming in at the end it left free. As a byte of its own that bit is or-ed into the plain shift; the bits that RL, RR,
SLX and SRX bring in come from the old byte, and what those four leave is brought to the same form. -/

namespace Sys2Proof.Machine

/-! ## Moving a byte by one bit -/

theorem getLsbD_ite_lsb (b : Bool) (i : Nat) :
    (if b then 0x01#8 else 0x00#8).getLsbD i = (decide (i = 0) && b) := by
  cases b with
  | false | true => simp

theorem getLsbD_ite_msb (b : Bool) (i : Nat) :
    (if b then 0x80#8 else 0x00#8).getLsbD i = (decide (i = 7) && b) := by
  cases b with
  | false => simp
  | true => exact (BitVec.getLsbD_twoPow 7 i).trans (by simp [eq_comm])

theorem append_lsb_eq_shiftLeft_or (v : Byte) (lsb : Bool) :
    (v.extractLsb' 0 7 ++ BitVec.ofBool lsb : Byte) = v <<< 1 ||| if lsb then 0x01#8 else 0x00#8 := by
  refine BitVec.eq_of_getLsbD_eq fun i hi => ?_
  rw [BitVec.getLsbD_append, BitVec.getLsbD_or, BitVec.getLsbD_shiftLeft, getLsbD_ite_lsb]
  cases i with
  | zero => simp
  | succ j => simp [hi, Nat.lt_of_succ_lt_succ hi]

theorem append_msb_eq_ushiftRight_or (v : Byte) (msb : Bool) :
    (BitVec.ofBool msb ++ v.extractLsb' 1 7 : Byte) = v >>> 1 ||| if msb then 0x80#8 else 0x00#8 := by
  refine BitVec.eq_of_getLsbD_eq fun i hi => ?_
  rw [BitVec.getLsbD_append, BitVec.getLsbD_or, BitVec.getLsbD_ushiftRight, getLsbD_ite_msb]
  rcases Nat.lt_succ_iff_lt_or_eq.1 hi with hlow | rfl
  · simp [hlow, hlow.ne]
  · simp

/-- R150, left: the value is the plain shift with the bit that comes in, `Z` is read off it, `C` is the old bit 7. -/
theorem shiftLeftResult_eq {v r : Byte} {lsb : Bool} (hr : r = v <<< 1 ||| if lsb then 0x01#8 else 0x00#8) :
    shiftLeftResult v lsb = ⟨r, decide (r = 0x00#8), v.getLsbD 7⟩ := by
  rw [hr, ← append_lsb_eq_shiftLeft_or]
  rfl

/-- R150, right: the value is the plain shift with the bit that comes in, `Z` is read off it, `C` is the old bit 0. -/
theorem shiftRightResult_eq {v r : Byte} {msb : Bool} (hr : r = v >>> 1 ||| if msb then 0x80#8 else 0x00#8) :
    shiftRightResult v msb = ⟨r, decide (r = 0x00#8), v.getLsbD 0⟩ := by
  rw [hr, ← append_msb_eq_ushiftRight_or]
  rfl

/-! ## The bit that comes in, where it is one of the byte's own -/

theorem ushiftRight_seven_eq (v : Byte) : v >>> 7 = if v.getLsbD 7 then 0x01#8 else 0x00#8 := by
  refine BitVec.eq_of_getLsbD_eq fun i hi => ?_
  rw [BitVec.getLsbD_ushiftRight, getLsbD_ite_lsb]
  cases i with
  | zero => simp
  | succ j => simp [BitVec.getLsbD_of_ge v (7 + (j + 1)) (by omega)]

theorem shiftLeft_seven_eq (v : Byte) : v <<< 7 = if v.getLsbD 0 then 0x80#8 else 0x00#8 := by
  refine BitVec.eq_of_getLsbD_eq fun i hi => ?_
  rw [BitVec.getLsbD_shiftLeft, getLsbD_ite_msb]
  rcases Nat.lt_succ_iff_lt_or_eq.1 hi with hlow | rfl
  · simp [hlow, hlow.ne]
  · simp

theorem shiftLeft_or_and_one_eq (v : Byte) :
    v <<< 1 ||| (v &&& 0x01#8) = v <<< 1 ||| if v.getLsbD 0 then 0x01#8 else 0x00#8 :=
  congrArg (v <<< 1 ||| ·) (BitVec.and_twoPow v 0)

theorem sshiftRight_one_eq (v : Byte) :
    v.sshiftRight 1 = v >>> 1 ||| if v.getLsbD 7 then 0x80#8 else 0x00#8 := by
  refine BitVec.eq_of_getLsbD_eq fun i hi => ?_
  rw [BitVec.getLsbD_sshiftRight, BitVec.getLsbD_or, BitVec.getLsbD_ushiftRight, getLsbD_ite_msb]
  rcases Nat.lt_succ_iff_lt_or_eq.1 hi with hlow | rfl
  · simp [hlow.ne, hi.not_ge, show 1 + i < 8 by omega]
  · simp [BitVec.msb_eq_getLsbD_last]

theorem rotateLeft_one_eq (v : Byte) : v.rotateLeft 1 = v <<< 1 ||| if v.getLsbD 7 then 0x01#8 else 0x00#8 := by
  rw [← ushiftRight_seven_eq]
  exact BitVec.rotateLeft_def

theorem rotateRight_one_eq (v : Byte) : v.rotateRight 1 = v >>> 1 ||| if v.getLsbD 0 then 0x80#8 else 0x00#8 := by
  rw [← shiftLeft_seven_eq]
  exact BitVec.rotateRight_def

/-! ## `Z` where it is told from the bit that comes in or from the old byte -/

theorem or_ne_zero_of_right {v u : Byte} (hu : u ≠ 0x00#8) : v ||| u ≠ 0x00#8 := fun h => hu (BitVec.or_eq_zero_iff.1 h).2

/-- A rotation loses no bit: what the shift by 1 drops is what the shift by 7 keeps. -/
theorem rotateLeft_one_eq_zero_iff (v : Byte) : v.rotateLeft 1 = 0x00#8 ↔ v = 0x00#8 := by
  rw [rotateLeft_one_eq, ← ushiftRight_seven_eq, BitVec.or_eq_zero_iff]
  bv_omega

theorem rotateRight_one_eq_zero_iff (v : Byte) : v.rotateRight 1 = 0x00#8 ↔ v = 0x00#8 := by
  rw [rotateRight_one_eq, ← shiftLeft_seven_eq, BitVec.or_eq_zero_iff]
  bv_omega

/-! ## The five left shifts -/

theorem exec_sl0 (x : RegNum) (s : State) :
    exec (.sl0 x) s = .next (s.finish x (shiftLeftResult (s.reg s.bank x) false)) := rfl

theorem exec_sl1 (x : RegNum) (s : State) :
    exec (.sl1 x) s = .next (s.finish x (shiftLeftResult (s.reg s.bank x) true)) := rfl

theorem exec_slx (x : RegNum) (s : State) :
    exec (.slx x) s = .next (s.finish x (shiftLeftResult (s.reg s.bank x) ((s.reg s.bank x).getLsbD 0))) := rfl

theorem exec_sla (x : RegNum) (s : State) :
    exec (.sla x) s = .next (s.finish x (shiftLeftResult (s.reg s.bank x) s.c)) := rfl

theorem exec_rl (x : RegNum) (s : State) :
    exec (.rl x) s = .next (s.finish x (shiftLeftResult (s.reg s.bank x) ((s.reg s.bank x).getLsbD 7))) := rfl

/-- Settles O20: each of the five moves the byte left with its own bit coming in; SL1's `Z` is 0 since that bit is 1, and
RL's is that of the old byte. -/
theorem leftShiftsCompute : Obligations.LeftShiftsCompute := by
  intro s x v cin
  have hsl1 : decide (v <<< 1 ||| 0x01#8 = 0x00#8) = false := decide_eq_false (or_ne_zero_of_right (by decide))
  have hrl : decide (v.rotateLeft 1 = 0x00#8) = decide (v = 0x00#8) := decide_eq_decide.2 (rotateLeft_one_eq_zero_iff v)
  exact ⟨⟨decodeInvertsEncode (.sl0 x), decodeInvertsEncode (.sl1 x), decodeInvertsEncode (.slx x),
      decodeInvertsEncode (.sla x), decodeInvertsEncode (.rl x)⟩,
    computes_of_exec_finish (exec_sl0 x s) (shiftLeftResult_eq BitVec.or_zero.symm),
    hsl1 ▸ computes_of_exec_finish (exec_sl1 x s) (shiftLeftResult_eq rfl),
    computes_of_exec_finish (exec_slx x s) (shiftLeftResult_eq (shiftLeft_or_and_one_eq v)),
    computes_of_exec_finish (exec_sla x s) (shiftLeftResult_eq rfl),
    hrl ▸ computes_of_exec_finish (exec_rl x s) (shiftLeftResult_eq (rotateLeft_one_eq v))⟩

/-! ## The five right shifts -/

theorem exec_sr0 (x : RegNum) (s : State) :
    exec (.sr0 x) s = .next (s.finish x (shiftRightResult (s.reg s.bank x) false)) := rfl

theorem exec_sr1 (x : RegNum) (s : State) :
    exec (.sr1 x) s = .next (s.finish x (shiftRightResult (s.reg s.bank x) true)) := rfl

theorem exec_srx (x : RegNum) (s : State) :
    exec (.srx x) s = .next (s.finish x (shiftRightResult (s.reg s.bank x) ((s.reg s.bank x).getLsbD 7))) := rfl

theorem exec_sra (x : RegNum) (s : State) :
    exec (.sra x) s = .next (s.finish x (shiftRightResult (s.reg s.bank x) s.c)) := rfl

theorem exec_rr (x : RegNum) (s : State) :
    exec (.rr x) s = .next (s.finish x (shiftRightResult (s.reg s.bank x) ((s.reg s.bank x).getLsbD 0))) := rfl

/-- Settles O21: each of the five moves the byte right with its own bit coming in; SR1's `Z` is 0 since that bit is 1, and
RR's is that of the old byte. -/
theorem rightShiftsCompute : Obligations.RightShiftsCompute := by
  intro s x v cin
  have hsr1 : decide (v >>> 1 ||| 0x80#8 = 0x00#8) = false := decide_eq_false (or_ne_zero_of_right (by decide))
  have hrr : decide (v.rotateRight 1 = 0x00#8) = decide (v = 0x00#8) := decide_eq_decide.2 (rotateRight_one_eq_zero_iff v)
  exact ⟨⟨decodeInvertsEncode (.sr0 x), decodeInvertsEncode (.sr1 x), decodeInvertsEncode (.srx x),
      decodeInvertsEncode (.sra x), decodeInvertsEncode (.rr x)⟩,
    computes_of_exec_finish (exec_sr0 x s) (shiftRightResult_eq BitVec.or_zero.symm),
    hsr1 ▸ computes_of_exec_finish (exec_sr1 x s) (shiftRightResult_eq rfl),
    computes_of_exec_finish (exec_srx x s) (shiftRightResult_eq (sshiftRight_one_eq v)),
    computes_of_exec_finish (exec_sra x s) (shiftRightResult_eq rfl),
    hrr ▸ computes_of_exec_finish (exec_rr x s) (shiftRightResult_eq (rotateRight_one_eq v))⟩

end Sys2Proof.Machine
end

section
/-! PROOFS. INPUT, OUTPUT and OUTPUTK (45_input_output.md). Both forms of INPUT end by the operation that reads a port into
`sX` (`State.inputFrom`): a register write and `pc + 1` after the port's event. The three outputs end by one event and
`pc + 1`. What each of these two operations changes and leaves alone is said once, for every port and every event. -/

namespace Sys2Proof.Machine

/-! ## Reading a port into a register -/

/-- R171, R172, R55: `sX` gets the byte the environment presents at port `p`, the listed byte is used up, the one event is
the read, nothing else changes but `pc`; `State.inputFrom_inputsFrom` ties it to INPUT's operation. -/
def InputsFrom (s t : State) (x : RegNum) (p : Byte) : Prop :=
  OnlyRegister s t s.bank x (s.presented p) ∧ SameFlags s t ∧ t.inputs = s.inputs.tail ∧ OnlyPortEvent s t (.read p)

theorem exec_inputRR (x y : RegNum) (s : State) :
    exec (.inputRR x y) s = .next (s.inputFrom x (s.reg s.bank y)) := rfl

theorem exec_inputRK (x : RegNum) (pp : Byte) (s : State) : exec (.inputRK x pp) s = .next (s.inputFrom x pp) := rfl

theorem State.presented_of_inputs_cons {s : State} {v : Byte} {rest : List Byte} (h : s.inputs = v :: rest) (p : Byte) :
    s.presented p = v := by
  rw [State.presented, h]

/-- The port's event leaves the registers and the flags alone, so what changes of them is what the register write changes. -/
theorem State.inputFrom_inputsFrom (s : State) (x : RegNum) (p : Byte) : InputsFrom s (s.inputFrom x p) x p := by
  have writes := (s.portRead p).setReg_advance_onlyRegister s.bank x (s.presented p)
  have flags := (s.portRead p).setReg_advance_sameFlags s.bank x (s.presented p)
  refine ⟨writes, flags, ?_, ?_⟩
  · simp [State.inputFrom, State.advance_eq, State.setX_eq]
  · simp [OnlyPortEvent, GoesOn, SameControl, SameScratchPad, OnlyTimePasses, SameSurroundings, TakesTwoCycles,
      State.inputFrom, State.advance_eq, State.setX_eq]

/-- Settles O22: both forms read their port into `sX`; a listed byte is the one presented. -/
theorem inputCapturesPresentedByte : Obligations.InputCapturesPresentedByte := fun s x y pp =>
  ⟨fun p _ _ h => State.presented_of_inputs_cons h p,
    ⟨_, exec_inputRR x y s, s.inputFrom_inputsFrom x (s.reg s.bank y)⟩,
    ⟨_, exec_inputRK x pp s, s.inputFrom_inputsFrom x pp⟩⟩

/-! ## Emitting an event -/

/-- The event `e` is emitted, `pc` goes on, nothing else changes: no register, no flag, no listed input byte (R173 to R175);
`State.emit_advance_onlyEmits` ties it to the operation that ends the three outputs. -/
def OnlyEmits (s t : State) (e : Event) : Prop :=
  SameRegisters s t ∧ SameFlags s t ∧ t.inputs = s.inputs ∧ OnlyPortEvent s t e

theorem exec_outputRR (x y : RegNum) (s : State) :
    exec (.outputRR x y) s = .next (s.emit (.write (s.reg s.bank y) (s.reg s.bank x))).advance := rfl

theorem exec_outputRK (x : RegNum) (pp : Byte) (s : State) :
    exec (.outputRK x pp) s = .next (s.emit (.write pp (s.reg s.bank x))).advance := rfl

theorem exec_outputK (kk : Byte) (p : PortK) (s : State) :
    exec (.outputK kk p) s = .next (s.emit (.writeK p kk)).advance := rfl

theorem State.emit_advance_onlyEmits (s : State) (e : Event) : OnlyEmits s (s.emit e).advance e := by
  simp [OnlyEmits, SameRegisters, SameFlags, OnlyPortEvent, GoesOn, SameControl, SameScratchPad, OnlyTimePasses,
    SameSurroundings, TakesTwoCycles, State.advance_eq]

/-- Settles O23: each of the three emits its own event and no more; OUTPUTK's word is the encoder's, with a 4-bit port. -/
theorem outputEmitsOneEvent : Obligations.OutputEmitsOneEvent := fun s x y pp kk p =>
  ⟨⟨_, exec_outputRR x y s, s.emit_advance_onlyEmits _⟩, ⟨_, exec_outputRK x pp s, s.emit_advance_onlyEmits _⟩,
    decodeInvertsEncode (.outputK kk p), ⟨_, exec_outputK kk p s, s.emit_advance_onlyEmits _⟩⟩

end Sys2Proof.Machine
end

section
/-! PROOFS. STORE and FETCH (46_scratch_pad.md). STORE ends by the scratch pad write and `pc + 1`; what that changes and leaves
alone is said once, for every location and byte. FETCH ends by the register write that LOAD ends by, of the byte read. -/

namespace Sys2Proof.Machine

/-! ## STORE -/

/-- R186, R187, R53: a location that aliases to `a` reads as `v`, every other as before, nothing else changes but `pc`;
`State.memWrite_advance_storesAt` ties it to the operation that ends STORE. -/
def StoresAt (s t : State) (a v : Byte) : Prop :=
  (∀ a' : Byte, t.memRead a' = if s.scratchPadIndex a' = s.scratchPadIndex a then v else s.memRead a') ∧
    SameRegisters s t ∧ SameFlags s t ∧ GoesOn s t ∧ SameControl s t ∧ t.stack = s.stack ∧ NoPortEvent s t ∧
    OnlyTimePasses s t

theorem exec_storeRR (x y : RegNum) (s : State) :
    exec (.storeRR x y) s = .next (s.memWrite (s.reg s.bank y) (s.reg s.bank x)).advance := rfl

/-- The canonical form is what a read after the write needs; the rest of the frame holds of every scratch pad. -/
theorem State.memWrite_advance_storesAt (s : State) (hwf : Memory.wf s.spm = true) (a v : Byte) :
    StoresAt s (s.memWrite a v).advance a v := by
  refine ⟨fun a' => ?_, ?_⟩
  · rw [State.advance_eq, State.goto_memRead, s.memRead_memWrite hwf]
  · simp [SameRegisters, SameFlags, GoesOn, SameControl, NoPortEvent, OnlyTimePasses, SameSurroundings, TakesTwoCycles,
      State.advance_eq]

/-- Settles O24: both forms end by the scratch pad write, at the location in `sY` or at `ss`; their words are the encoder's. -/
theorem storeWritesOneLocation : Obligations.StoreWritesOneLocation := by
  intro s x y ss hwf
  have stores (a : Byte) := s.memWrite_advance_storesAt hwf a (s.reg s.bank x)
  exact ⟨⟨decodeInvertsEncode (.storeRR x y), decodeInvertsEncode (.storeRK x ss)⟩, fun _ => rfl,
    ⟨_, exec_storeRR x y s, stores (s.reg s.bank y)⟩, ⟨_, exec_storeRK x ss s, stores ss⟩⟩

/-! ## FETCH -/

theorem exec_fetchRR (x y : RegNum) (s : State) : exec (.fetchRR x y) s = .next (s.fetchFrom x (s.reg s.bank y)) := rfl

theorem State.fetchFrom_eq (s : State) (x : RegNum) (a : Byte) :
    s.fetchFrom x a = (s.setReg s.bank x (s.memRead a)).advance := rfl

/-- R188, R189: `sX` gets the byte at location `a` modulo the size, and nothing else changes but `pc`. -/
theorem State.fetchFrom_loads (s : State) (x : RegNum) (a : Byte) :
    OnlyRegister s (s.fetchFrom x a) s.bank x (s.memRead a) ∧ SameFlags s (s.fetchFrom x a) ∧
      OnlyRegistersAndFlags s (s.fetchFrom x a) := by
  rw [State.fetchFrom_eq]
  exact ⟨s.setReg_advance_onlyRegister _ x _, s.setReg_advance_sameFlags _ x _,
    s.setReg_advance_onlyRegistersAndFlags _ x _⟩

/-- Settles O25: both forms load the byte read at their location, in `sY` or `ss`; their words are the encoder's. -/
theorem fetchReadsOneLocation : Obligations.FetchReadsOneLocation := fun s x y ss =>
  ⟨⟨decodeInvertsEncode (.fetchRR x y), decodeInvertsEncode (.fetchRK x ss)⟩,
    ⟨_, exec_fetchRR x y s, s.fetchFrom_loads x (s.reg s.bank y)⟩, ⟨_, exec_fetchRK x ss s, s.fetchFrom_loads x ss⟩⟩

end Sys2Proof.Machine
end

section
/-! PROOFS. JUMP and JUMP@ (48_jump.md), and the conditions that JUMP, CALL and RETURN share (R205). A transfer ends by one
write of `pc`, taken or not; a statement about all four conditions is one about every `Cond` that holds, or that fails. -/

namespace Sys2Proof.Machine

/-! ## The four conditions -/

theorem Cond.nz_holds_iff (s : State) : Cond.nz.holds s = true ↔ s.z = false := by simp [Cond.holds]

theorem Cond.nc_holds_iff (s : State) : Cond.nc.holds s = true ↔ s.c = false := by simp [Cond.holds]

/-- A law about the conditions that hold, spelt out as the statements do: by the flag each of the four asks for. -/
theorem Cond.each_that_holds {s : State} {p : Cond → Prop} (h : ∀ k : Cond, k.holds s = true → p k) :
    (s.z = true → p .z) ∧ (s.z = false → p .nz) ∧ (s.c = true → p .c) ∧ (s.c = false → p .nc) :=
  ⟨h .z, fun hz => h .nz ((nz_holds_iff s).mpr hz), h .c, fun hc => h .nc ((nc_holds_iff s).mpr hc)⟩

/-- A law about the conditions that fail, spelt out likewise. -/
theorem Cond.each_that_fails {s : State} {p : Cond → Prop} (h : ∀ k : Cond, k.holds s = false → p k) :
    (s.z = false → p .z) ∧ (s.z = true → p .nz) ∧ (s.c = false → p .c) ∧ (s.c = true → p .nc) :=
  ⟨h .z, fun hz => h .nz (congrArg not hz), h .c, fun hc => h .nc (congrArg not hc)⟩

/-! ## Writing `pc` -/

theorem State.goto_onlyJumps (s : State) (a : ProgAddr) : OnlyJumps s (s.goto a) a := by
  simp [OnlyJumps, SameRegisters, SameFlags, SameControl, SameScratchPad, NoPortEvent, OnlyTimePasses, SameSurroundings,
    TakesTwoCycles]

theorem State.advance_onlyGoesOn (s : State) : OnlyGoesOn s s.advance := by
  simp [OnlyGoesOn, OnlyRegistersAndFlags, GoesOn, SameRegisters, SameFlags, SameControl, SameScratchPad, NoPortEvent,
    OnlyTimePasses, SameSurroundings, TakesTwoCycles, State.advance_eq]

/-- A conditional transfer that is not taken goes on, whatever it would have done. -/
theorem State.when_onlyGoesOn {s : State} {k : Cond} (hk : k.holds s = false) (o : Host.Outcome State Fault Refusal) :
    ∃ t, s.when k o = .next t ∧ OnlyGoesOn s t :=
  ⟨_, s.when_false k o hk, s.advance_onlyGoesOn⟩

/-- A conditional JUMP, by its condition; `p` is how a statement says that the condition holds. -/
theorem State.when_goto (s : State) (k : Cond) (a : ProgAddr) {p : Prop} [Decidable p] (hp : k.holds s = true ↔ p) :
    ∃ t, s.when k (.next (s.goto a)) = .next t ∧ if p then OnlyJumps s t a else OnlyGoesOn s t := by
  by_cases holds : p
  · exact ⟨_, s.when_true k _ (hp.mpr holds), (if_pos holds).mpr (s.goto_onlyJumps a)⟩
  · obtain ⟨t, ht, goesOn⟩ := s.when_onlyGoesOn (Bool.eq_false_of_not_eq_true (mt hp.mp holds)) (.next (s.goto a))
    exact ⟨t, ht, (if_neg holds).mpr goesOn⟩

theorem exec_jump (aaa : ProgAddr) (s : State) : exec (.jump aaa) s = .next (s.goto aaa) := rfl

/-- Settles O29: each conditional JUMP is one transfer under its own condition; the five words are the encoder's. -/
theorem jumpsChangeOnlyPc : Obligations.JumpsChangeOnlyPc := fun s aaa =>
  ⟨⟨decodeInvertsEncode (.jump aaa), decodeInvertsEncode (.jumpZ aaa), decodeInvertsEncode (.jumpNZ aaa),
      decodeInvertsEncode (.jumpC aaa), decodeInvertsEncode (.jumpNC aaa)⟩,
    ⟨_, exec_jump aaa s, s.goto_onlyJumps aaa⟩, s.when_goto .z aaa .rfl, s.when_goto .nz aaa (Cond.nz_holds_iff s),
    s.when_goto .c aaa .rfl, s.when_goto .nc aaa (Cond.nc_holds_iff s)⟩

/-! ## The address in a register pair -/

/-- R79, R211: the four low bits of the one byte over all eight of the other, as a number. -/
theorem State.pairAddress_eq (s : State) (x y : RegNum) :
    s.pairAddress x y = BitVec.ofNat 12 ((s.reg s.bank x).toNat % 16 * 256 + (s.reg s.bank y).toNat) := by
  have hx := (s.reg s.bank x).isLt
  have hy := (s.reg s.bank y).isLt
  apply BitVec.eq_of_toNat_eq
  rw [State.pairAddress, State.x_eq, State.x_eq, BitVec.toNat_append, BitVec.toNat_ofNat,
    ← Nat.shiftLeft_add_eq_or_of_lt hy, BitVec.extractLsb'_toNat]
  simp only [Nat.shiftLeft_eq, Nat.shiftRight_zero]
  omega

theorem exec_jumpAt (x y : RegNum) (s : State) : exec (.jumpAt x y) s = .next (s.goto (s.pairAddress x y)) := rfl

/-- Settles O30: JUMP@ writes `pc` like JUMP, with the address the register pair holds; its word is the encoder's. -/
theorem jumpAtUsesRegisterPair : Obligations.JumpAtUsesRegisterPair := by
  intro s x y
  rw [← s.pairAddress_eq x y]
  exact ⟨decodeInvertsEncode (.jumpAt x y), _, exec_jumpAt x y s, s.goto_onlyJumps _⟩

end Sys2Proof.Machine
end

section
/-! PROOFS. CALL, RETURN, LOAD&RETURN and HWBUILD (49_subroutines_version.md). A CALL and a RETURN on a CALL's frame end by the
same write, of the stack and of `pc`; a conditional form is that transfer under its condition, so what the transfer does is
said once and serves all five forms. -/

namespace Sys2Proof.Machine

/-! ## Transfers that move the stack -/

/-- A push or a pop and a write of `pc`: nothing else changes. -/
theorem State.goto_onlyJumpsWithStack (s : State) (a : ProgAddr) (frames : List Frame) :
    OnlyJumpsWithStack s (({ s with stack := frames } : State).goto a) a frames := by
  simp [OnlyJumpsWithStack, SameRegisters, SameFlags, SameControl, SameScratchPad, NoPortEvent, OnlyTimePasses,
    SameSurroundings, TakesTwoCycles, State.reg, State.memRead, State.scratchPadIndex]

/-- A conditional transfer whose condition holds does what the transfer does. -/
theorem State.exists_when_next {s : State} {k : Cond} {o : Host.Outcome State Fault Refusal} {P : State → Prop}
    (h : ∃ t, o = .next t ∧ P t) (hk : k.holds s = true) : ∃ t, s.when k o = .next t ∧ P t := by
  rwa [s.when_true k o hk]

/-! ## CALL -/

theorem exec_call (aaa : ProgAddr) (s : State) : exec (.call aaa) s = .next (s.enterSubroutine aaa) := rfl

theorem exec_callAt (x y : RegNum) (s : State) :
    exec (.callAt x y) s = .next (s.enterSubroutine (s.pairAddress x y)) := rfl

theorem State.enterSubroutine_pushes (s : State) (a : ProgAddr) (hroom : s.stack.length < stackLevels) :
    OnlyJumpsWithStack s (s.enterSubroutine a) a (.call s.pc :: s.stack) := by
  rw [s.enterSubroutine_below a hroom]
  exact s.goto_onlyJumpsWithStack a _

/-- Settles O31: every taken CALL is one push and one write of `pc`; one that is not taken goes on. -/
theorem callsPushTheirAddress : Obligations.CallsPushTheirAddress := by
  intro s x y aaa pushed
  refine ⟨fun hroom => ?_, Cond.each_that_fails fun _ hk => s.when_onlyGoesOn hk _⟩
  rw [← s.pairAddress_eq x y]
  have call : ∃ t, exec (.call aaa) s = .next t ∧ OnlyJumpsWithStack s t aaa pushed :=
    ⟨_, exec_call aaa s, s.enterSubroutine_pushes aaa hroom⟩
  exact ⟨call, ⟨_, exec_callAt x y s, s.enterSubroutine_pushes _ hroom⟩,
    Cond.each_that_holds fun _ hk => State.exists_when_next call hk⟩

/-- Entering a subroutine at 30 frames is the internal reset, and is counted as one. -/
theorem State.enterSubroutine_resets (s : State) (a : ProgAddr) (hfull : stackLevels ≤ s.stack.length) :
    IsResetFrom s (s.enterSubroutine a) ∧ (s.enterSubroutine a).overflows = s.overflows + 1 := by
  rw [s.enterSubroutine_full a hfull.not_gt]
  exact ⟨s.overflowReset_isReset, rfl⟩

/-- Settles O32: a full stack makes every taken CALL the internal reset, whatever its target. -/
theorem callAtFullStackResets : Obligations.CallAtFullStackResets := by
  intro s x y aaa hfull
  have call : ∃ t, exec (.call aaa) s = .next t ∧ IsResetFrom s t ∧ t.overflows = s.overflows + 1 :=
    ⟨_, exec_call aaa s, s.enterSubroutine_resets aaa hfull⟩
  exact ⟨call, ⟨_, exec_callAt x y s, s.enterSubroutine_resets _ hfull⟩,
    Cond.each_that_holds fun _ hk => State.exists_when_next call hk⟩

/-! ## RETURN -/

section
variable {s : State} {a : ProgAddr} {rest : List Frame} (load : State → State)

theorem State.returnFromSubroutine_call (h : s.stack = .call a :: rest) :
    s.returnFromSubroutine load = .next ((load { s with stack := rest }).goto (a + 1#12)) := by
  simp [State.returnFromSubroutine, State.popCall, h]

theorem State.returnFromSubroutine_empty (h : s.stack = []) :
    s.returnFromSubroutine load = .fault .stackUnderflow := by
  simp [State.returnFromSubroutine, State.popCall, h]

theorem State.returnFromSubroutine_int {z c : Bool} {b : Bank} (h : s.stack = .int a z c b :: rest) :
    s.returnFromSubroutine load = .fault .frameKindMismatch := by
  simp [State.returnFromSubroutine, State.popCall, h]

end

theorem exec_ret (s : State) : exec .ret s = s.returnFromSubroutine id := rfl

theorem exec_loadReturn (x : RegNum) (kk : Byte) (s : State) :
    exec (.loadReturn x kk) s = s.returnFromSubroutine (·.setX x kk) := rfl

theorem exec_ret_pops {s : State} {a : ProgAddr} {rest : List Frame} (h : s.stack = .call a :: rest) :
    ∃ t, exec .ret s = .next t ∧ OnlyJumpsWithStack s t (a + 1#12) rest :=
  ⟨_, (exec_ret s).trans (State.returnFromSubroutine_call id h), s.goto_onlyJumpsWithStack (a + 1#12) rest⟩

/-- Settles O33: every taken RETURN is one pop and one write of `pc`; one that is not taken goes on. -/
theorem returnsGoAfterTheirCall : Obligations.ReturnsGoAfterTheirCall := fun s =>
  ⟨fun _ _ h => ⟨exec_ret_pops h, Cond.each_that_holds fun _ hk => State.exists_when_next (exec_ret_pops h) hk⟩,
    Cond.each_that_fails fun _ hk => s.when_onlyGoesOn hk _⟩

/-- Settles O36: the frame the CALL pushed is on top of the stack it left, above the stack it found. -/
theorem returnMatchesCall : Obligations.ReturnMatchesCall := by
  intro s u aaa hroom
  refine ⟨_, exec_call aaa s, fun hu => ?_⟩
  obtain ⟨-, hpushed, -⟩ := s.enterSubroutine_pushes aaa hroom
  obtain ⟨v, hv, hpc, hstack, hregs, hflags, -⟩ := exec_ret_pops (hu.trans hpushed)
  exact ⟨v, hv, hpc, hstack, hregs, hflags⟩

/-- Settles O34: the register is loaded after the pop, and neither touches what the other writes. -/
theorem loadAndReturnDoesBoth : Obligations.LoadAndReturnDoesBoth := by
  intro s x kk a rest h
  refine ⟨_, (exec_loadReturn x kk s).trans (State.returnFromSubroutine_call _ h), rfl, rfl, fun b r => ?_, ?_⟩
  · rw [State.goto_reg, State.setX_eq, State.reg_setReg]
    rfl
  · simp [SameFlags, SameControl, SameScratchPad, NoPortEvent, OnlyTimePasses, SameSurroundings, TakesTwoCycles,
      State.setX_eq, State.memRead, State.scratchPadIndex]

/-! ## HWBUILD -/

theorem exec_hwbuild (x : RegNum) (s : State) :
    exec (.hwbuild x) s = .next (s.finish x (hwbuildResult s.generics.hwbuild)) := rfl

/-- Settles O37: HWBUILD ends like every instruction with a result in `sX`; its word is the encoder's. -/
theorem hwbuildLoadsGeneric : Obligations.HwbuildLoadsGeneric := fun s x =>
  ⟨decodeInvertsEncode (.hwbuild x), computes_of_exec_finish (exec_hwbuild x s) rfl⟩

end Sys2Proof.Machine
end

section
/-! PROOFS. The interrupt (47_interrupt_handling.md, 60_exceptions.md R254 to R258). ENABLE and DISABLE INTERRUPT end by the
write of `IE` and `pc + 1`, both RETURNIs by the return from an interrupt; what each of these operations changes and leaves
alone is said once, for either value of `IE`. -/

namespace Sys2Proof.Machine

/-! ## Writing `IE` -/

/-- `IE` is `ie`, `pc` goes on, nothing else changes (R196, R197); `State.setIE_advance_onlyWritesIE` ties it to the operation
that ends both instructions. -/
def OnlyWritesIE (s t : State) (ie : Bool) : Prop :=
  t.ie = ie ∧ t.bank = s.bank ∧ SameRegisters s t ∧ SameFlags s t ∧ t.stack = s.stack ∧ SameScratchPad s t ∧
    NoPortEvent s t ∧ OnlyTimePasses s t ∧ GoesOn s t

theorem exec_disableInterrupt (s : State) : exec .disableInterrupt s = .next (s.setIE false).advance := rfl

theorem exec_enableInterrupt (s : State) : exec .enableInterrupt s = .next (s.setIE true).advance := rfl

theorem State.setIE_advance_onlyWritesIE (s : State) (ie : Bool) : OnlyWritesIE s (s.setIE ie).advance ie := by
  simp [OnlyWritesIE, SameRegisters, SameFlags, SameScratchPad, NoPortEvent, OnlyTimePasses, SameSurroundings,
    TakesTwoCycles, GoesOn, State.advance_eq]

/-- Settles O27: the two instructions are one operation, with the two values of `IE`. -/
theorem interruptEnableInstructions : Obligations.InterruptEnableInstructions := fun s =>
  ⟨⟨_, exec_disableInterrupt s, s.setIE_advance_onlyWritesIE false⟩,
    ⟨_, exec_enableInterrupt s, s.setIE_advance_onlyWritesIE true⟩⟩

/-! ## RETURNI -/

/-- The frame `int a z c b` is gone from above `rest` and restored, `IE` is `ie`, nothing else changes (R198, R199);
`State.returnFromInterrupt_restores` ties it to the operation both RETURNIs are. -/
def RestoresFrame (s t : State) (a : ProgAddr) (z c : Bool) (b : Bank) (ie : Bool) (rest : List Frame) : Prop :=
  t.pc = a ∧ FlagsAre t z c ∧ t.bank = b ∧ t.ie = ie ∧ t.stack = rest ∧ SameRegisters s t ∧ SameScratchPad s t ∧
    NoPortEvent s t ∧ OnlyTimePasses s t

theorem exec_returniDisable (s : State) : exec .returniDisable s = s.returnFromInterrupt false := rfl

theorem exec_returniEnable (s : State) : exec .returniEnable s = s.returnFromInterrupt true := rfl

section
variable {s : State} {a : ProgAddr} {z c : Bool} {b : Bank} {rest : List Frame} (ie : Bool)

theorem State.returnFromInterrupt_empty (h : s.stack = []) : s.returnFromInterrupt ie = .fault .stackUnderflow := by
  simp [State.returnFromInterrupt, h]

theorem State.returnFromInterrupt_call (h : s.stack = .call a :: rest) :
    s.returnFromInterrupt ie = .fault .frameKindMismatch := by
  simp [State.returnFromInterrupt, h]

theorem State.returnFromInterrupt_int (h : s.stack = .int a z c b :: rest) :
    s.returnFromInterrupt ie =
      .next ((({ s with stack := rest } : State).setFlags z c |>.setBank b |>.setIE ie).goto a) := by
  simp [State.returnFromInterrupt, h]

theorem State.returnFromInterrupt_restores (h : s.stack = .int a z c b :: rest) :
    ∃ t, s.returnFromInterrupt ie = .next t ∧ RestoresFrame s t a z c b ie rest := by
  refine ⟨_, State.returnFromInterrupt_int ie h, ?_⟩
  simp [RestoresFrame, FlagsAre, SameRegisters, SameScratchPad, NoPortEvent, OnlyTimePasses, SameSurroundings,
    TakesTwoCycles, State.reg, State.memRead, State.scratchPadIndex]

end

/-- Settles O28: the two RETURNIs are one operation, with the two values of `IE`. -/
theorem returniRestoresFrame : Obligations.ReturniRestoresFrame := fun _ _ _ _ _ _ h =>
  ⟨State.returnFromInterrupt_restores false h, State.returnFromInterrupt_restores true h⟩

/-! ## Entry and return -/

theorem State.enterInterrupt_stack (s : State) (hroom : s.stack.length < stackLevels) :
    s.enterInterrupt.stack = .int s.pc s.z s.c s.bank :: s.stack := by
  rw [s.enterInterrupt_below hroom, State.emit_stack]

/-- A return from the stack an entry left goes back to what the frame of that entry holds. -/
theorem State.returnFromInterrupt_undoes_enterInterrupt {s u : State} (hroom : s.stack.length < stackLevels)
    (hu : u.stack = s.enterInterrupt.stack) (ie : Bool) :
    ∃ v, u.returnFromInterrupt ie = .next v ∧ v.pc = s.pc ∧ FlagsAre v s.z s.c ∧ v.bank = s.bank ∧ v.stack = s.stack ∧
      v.ie = ie ∧ SameRegisters u v ∧ SameScratchPad u v := by
  obtain ⟨v, hv, hpc, hflags, hbank, hie, hstack, hregs, hspm, -⟩ :=
    State.returnFromInterrupt_restores ie (hu.trans (s.enterInterrupt_stack hroom))
  exact ⟨v, hv, hpc, hflags, hbank, hstack, hie, hregs, hspm⟩

/-- Settles O53, for the two values of `IE`. -/
theorem returniUndoesInterruptEntry : Obligations.ReturniUndoesInterruptEntry := fun _ _ hroom hu =>
  ⟨State.returnFromInterrupt_undoes_enterInterrupt hroom hu true,
    State.returnFromInterrupt_undoes_enterInterrupt hroom hu false⟩

/-! ## Returns without their frame -/

/-- Settles O35: what a return does is decided by the frame on top; a conditional RETURN that is taken faults as RETURN does. -/
theorem returnsFaultWithoutTheirFrame : Obligations.ReturnsFaultWithoutTheirFrame := by
  intro s x kk
  have conditional (f : Fault) (h : exec .ret s = .fault f) :=
    Cond.each_that_holds fun k hk => (s.when_true k (s.returnFromSubroutine id) hk).trans h
  refine ⟨fun h => ?_, fun a z c b rest h => ?_, fun a rest h => ?_⟩
  · have ret : exec .ret s = .fault .stackUnderflow := State.returnFromSubroutine_empty id h
    exact ⟨ret, State.returnFromSubroutine_empty (·.setX x kk) h, State.returnFromInterrupt_empty false h,
      State.returnFromInterrupt_empty true h, conditional _ ret⟩
  · have ret : exec .ret s = .fault .frameKindMismatch := State.returnFromSubroutine_int id h
    exact ⟨ret, State.returnFromSubroutine_int (·.setX x kk) h, conditional _ ret⟩
  · exact ⟨State.returnFromInterrupt_call false h, State.returnFromInterrupt_call true h⟩

end Sys2Proof.Machine
end

section
/-! PROOFS. All instructions. Which ones can stop, and on what ground (93_implementation_defined.md U3, U4): a return is the
only operation without a next state, and an instruction that uses it is in the class that pops its frame. Where `pc` goes and
how many clock cycles pass is read off the operation an instruction ends by (`EffectOf`). -/

namespace Sys2Proof

/-- What pushes or pops a frame is a control transfer (10_state.md R25, R30, R33). -/
theorem Instr.isTransfer_of_usesStack {i : Instr} (h : i.isCall = true ∨ i.popsCall = true ∨ i.popsInt = true) :
    i.isTransfer = true := by
  cases i with
  | call | callZ | callNZ | callC | callNC | callAt | ret | retZ | retNZ | retC | retNC | loadReturn | returniDisable
  | returniEnable => rfl
  | _ => simp [isCall, popsCall, popsInt] at h

end Sys2Proof

namespace Sys2Proof.Machine

/-! ## Which instructions can stop -/

/-- `o`, the outcome of `i` on `s`, is a next state, or one of the two faults on its ground: U3 on an empty stack, U4 on a
frame of the other kind; `exec_completesOrFaults` ties it to `exec`. -/
inductive CompletesOrFaults (i : Instr) (s : State) : Host.Outcome State Fault Refusal → Prop
  | next (t : State) : CompletesOrFaults i s (.next t)
  | underflow (hstack : s.stack = []) (hi : i.popsCall = true ∨ i.popsInt = true) :
      CompletesOrFaults i s (.fault .stackUnderflow)
  | intFrame (a : ProgAddr) (z c : Bool) (b : Bank) (rest : List Frame) (hstack : s.stack = .int a z c b :: rest)
      (hi : i.popsCall = true) : CompletesOrFaults i s (.fault .frameKindMismatch)
  | callFrame (a : ProgAddr) (rest : List Frame) (hstack : s.stack = .call a :: rest) (hi : i.popsInt = true) :
      CompletesOrFaults i s (.fault .frameKindMismatch)

theorem CompletesOrFaults.returnFromSubroutine {i : Instr} (hi : i.popsCall = true) (s : State) (load : State → State) :
    CompletesOrFaults i s (s.returnFromSubroutine load) := by
  obtain ⟨_, _, -, ho⟩ | ⟨hstack, ho⟩ | ⟨a, z, c, b, rest, hstack, ho⟩ := s.returnFromSubroutine_cases load
  · exact ho ▸ .next _
  · exact ho ▸ .underflow hstack (.inl hi)
  · exact ho ▸ .intFrame a z c b rest hstack hi

theorem CompletesOrFaults.returnFromInterrupt {i : Instr} (hi : i.popsInt = true) (s : State) (ie : Bool) :
    CompletesOrFaults i s (s.returnFromInterrupt ie) := by
  obtain ⟨_, _, _, _, _, -, ho⟩ | ⟨hstack, ho⟩ | ⟨a, rest, hstack, ho⟩ := s.returnFromInterrupt_cases ie
  · exact ho ▸ .next _
  · exact ho ▸ .underflow hstack (.inr hi)
  · exact ho ▸ .callFrame a rest hstack hi

/-- A conditional transfer that is not taken completes. -/
theorem CompletesOrFaults.when {i : Instr} {s : State} {o : Host.Outcome State Fault Refusal}
    (taken : CompletesOrFaults i s o) (k : Cond) : CompletesOrFaults i s (s.when k o) := by
  cases hk : k.holds s with
  | true => rwa [s.when_true k o hk]
  | false => exact s.when_false k o hk ▸ .next _

theorem exec_completesOrFaults (i : Instr) (s : State) : CompletesOrFaults i s (exec i s) := by
  cases i with
  | ret => exact .returnFromSubroutine rfl s id
  | loadReturn x kk => exact .returnFromSubroutine rfl s (·.setX x kk)
  | retZ | retNZ | retC | retNC => exact .when (.returnFromSubroutine rfl s id) _
  | returniDisable | returniEnable => exact .returnFromInterrupt rfl s _
  | jumpZ | jumpNZ | jumpC | jumpNC | callZ | callNZ | callC | callNC => exact .when (.next _) _
  | _ => exact .next _

/-- Settles O38: the four ways of `CompletesOrFaults` are the statement's. -/
theorem onlyReturnsCanFault : Obligations.OnlyReturnsCanFault := by
  intro i s
  have h := exec_completesOrFaults i s
  generalize exec i s = o at h ⊢
  cases h with
  | next t => exact .inl ⟨t, rfl⟩
  | underflow hstack hi => exact .inr (.inl ⟨hstack, hi, rfl⟩)
  | intFrame a z c b rest hstack hi => exact .inr (.inr (.inl ⟨a, z, c, b, rest, hstack, hi, rfl⟩))
  | callFrame a rest hstack hi => exact .inr (.inr (.inr ⟨a, rest, hstack, hi, rfl⟩))

/-! ## Where `pc` goes -/

/-- Every operation that sets `pc` otherwise asks for a control transfer. -/
theorem EffectOf.pc_eq {i : Instr} {s t : State} (h : EffectOf i s t) (hi : i.isTransfer = false) :
    t.pc = s.pc + 1#12 := by
  have offStack : ¬(i.isCall = true ∨ i.popsCall = true ∨ i.popsInt = true) :=
    fun hi' => Bool.false_ne_true (hi.symm.trans (Instr.isTransfer_of_usesStack hi'))
  cases h with
  | goto target ht => cases hi.symm.trans ht
  | enterSubroutine target hcall => exact absurd (.inl hcall) offStack
  | ret addr rest hret => exact absurd (.inr (.inl hret)) offStack
  | loadReturn x kk addr rest hret => exact absurd (.inr (.inl hret)) offStack
  | returni ie addr z c b rest hreti => exact absurd (.inr (.inr hreti)) offStack
  | finish | finishFlags | setX | setAlt | setIE | setBank | inputFrom | emit | memWrite => rfl

theorem State.when_next_pc {s t : State} {k : Cond} {o : Host.Outcome State Fault Refusal} (hk : k.holds s = false)
    (h : s.when k o = .next t) : t.pc = s.pc + 1#12 := by
  cases h.symm.trans (s.when_false k o hk)
  rfl

/-- The three instructions under one condition (48_jump.md R205); `Cond.exec_transfers` ties the list to `State.when`. -/
def Cond.transfers (aaa : ProgAddr) : Cond → List Instr
  | .z => [.jumpZ aaa, .callZ aaa, .retZ]
  | .nz => [.jumpNZ aaa, .callNZ aaa, .retNZ]
  | .c => [.jumpC aaa, .callC aaa, .retC]
  | .nc => [.jumpNC aaa, .callNC aaa, .retNC]

theorem Cond.exec_transfers {k : Cond} {aaa : ProgAddr} {i : Instr} (hi : i ∈ k.transfers aaa) (s : State) :
    ∃ o, exec i s = s.when k o := by
  cases k with
  | z | nz | c | nc =>
    simp only [transfers, List.mem_cons, List.not_mem_nil, or_false] at hi
    obtain rfl | rfl | rfl := hi <;> exact ⟨_, rfl⟩

/-- Settles O39: by the operation that ends the instruction, and for a transfer not taken by its condition. -/
theorem sequentialInstructionsAdvance : Obligations.SequentialInstructionsAdvance := by
  refine ⟨fun i s t hi h => (exec_effectOf h).pc_eq hi, fun s t aaa => ?_⟩
  have notTaken (k : Cond) (hk : k.holds s = false) :
      ∀ i ∈ k.transfers aaa, exec i s = .next t → t.pc = s.pc + 1#12 := by
    intro i hi h
    obtain ⟨o, ho⟩ := Cond.exec_transfers hi s
    exact State.when_next_pc hk (ho.symm.trans h)
  exact Cond.each_that_fails notTaken

/-! ## How long it takes -/

theorem EffectOf.cycles_eq {i : Instr} {s t : State} (h : EffectOf i s t)
    (room : i.isCall = true → s.stack.length < stackLevels) : t.cycles = s.cycles + 2 := by
  cases h with
  | enterSubroutine target hcall => rw [s.enterSubroutine_below target (room hcall)]; rfl
  | finish | finishFlags | setX | setAlt | setIE | setBank | inputFrom | emit | memWrite | goto | ret | loadReturn
  | returni => rfl

/-- Settles O46: every operation but the internal reset ends with the one write of `pc` that counts two cycles. -/
theorem everyInstructionTakesTwoCycles : Obligations.EveryInstructionTakesTwoCycles :=
  fun _ _ _ room h => (exec_effectOf h).cycles_eq room

end Sys2Proof.Machine
end

section
/-! PROOFS. One step (60_exceptions.md R259). Which of the four things a step does is decided by the levels at the boundary;
what a reset, sleep or an interrupt then leaves is what the shared operation leaves, and an instruction is the one at `pc`. -/

namespace Sys2Proof.Machine

/-! ## What decides the step -/

section
variable {s : State}

theorem step_of_reset (hlegal : s.generics.legal = true) (hreset : s.levels.reset = true) :
    step s = .next s.passBoundary.takeReset := by
  simp [step, hlegal, hreset]

theorem step_of_sleep (hlegal : s.generics.legal = true) (hreset : s.levels.reset = false)
    (hsleep : s.levels.sleep = true) : step s = .next s.passBoundary := by
  simp [step, hlegal, hreset, hsleep]

theorem step_of_interrupt (hlegal : s.generics.legal = true) (hreset : s.levels.reset = false)
    (hsleep : s.levels.sleep = false) (hie : s.ie = true) (hirq : s.levels.interrupt = true) :
    step s = .next s.passBoundary.enterInterrupt := by
  simp [step, hlegal, hreset, hsleep, hie, hirq]

theorem step_of_undisturbed (h : s.Undisturbed) : step s = s.passBoundary.runInstruction := by
  obtain ⟨hlegal, hreset, hsleep, hirq⟩ := h
  have notTaken : (s.ie && s.levels.interrupt) = false := (Bool.and_eq_false_iff ..).mpr hirq
  simp [step, hlegal, hreset, hsleep, notTaken]

theorem State.runInstruction_of_decode {w : IWord} {i : Instr} (hw : s.progRead s.pc = some w)
    (hi : decode w = .instr i) : s.runInstruction = exec i s := by
  simp [State.runInstruction, hw, hi]

end

/-- Settles O7: sampling the pins leaves the program and `pc` alone, so the word fetched is the one at `pc`. -/
theorem stepRunsDecodedInstruction : Obligations.StepRunsDecodedInstruction := by
  intro s w i h hw hi
  have fetched : s.passBoundary.progRead s.passBoundary.pc = some w := hw
  exact (step_of_undisturbed h).trans (State.runInstruction_of_decode fetched hi)

/-! ## A word placed from outside (log 9) -/

theorem decode_of_decodeTableWord {nbits w : Nat} {i : Instr} (h : decodeTableWord nbits w = some i) :
    decode (BitVec.ofNat 18 (w % 2 ^ nbits)) = .instr i := by
  unfold decodeTableWord at h
  split at h
  · split at h
    · cases h; assumption
    · cases h
  · cases h

/-- `coverPc` makes the configuration an accepted one in which the address at `pc` exists. -/
theorem State.coverPc_covers (s : State) :
    s.coverPc.generics.legal = true ∧ s.coverPc.pc.toNat < s.coverPc.generics.programMemorySize := by
  unfold State.coverPc
  split
  · next h => simpa using h
  · exact ⟨rfl, s.pc.isLt⟩

theorem State.coverPc_program (s : State) : s.coverPc.program = s.program := by
  unfold State.coverPc
  split <;> rfl

theorem State.coverPc_pc (s : State) : s.coverPc.pc = s.pc := by
  unfold State.coverPc
  split <;> rfl

theorem State.coverPc_progRead (s : State) :
    s.coverPc.progRead s.coverPc.pc = some (Memory.read s.program s.pc.toNat) := by
  rw [State.progRead, if_pos s.coverPc_covers.2, s.coverPc_program, s.coverPc_pc]

theorem State.withFetchWord_undisturbed (s : State) (nbits w : Nat) : (s.withFetchWord nbits w).Undisturbed :=
  ⟨(State.coverPc_covers _).1, rfl, rfl, .inr rfl⟩

theorem State.withFetchWord_progRead (s : State) (nbits w : Nat) (hwf : Memory.wf s.program = true) :
    (s.withFetchWord nbits w).progRead (s.withFetchWord nbits w).pc = some (BitVec.ofNat 18 (w % 2 ^ nbits)) := by
  calc (s.withFetchWord nbits w).progRead (s.withFetchWord nbits w).pc
    _ = some (Memory.read (Memory.write s.program s.pc.toNat _) s.pc.toNat) := State.coverPc_progRead _
    _ = some (BitVec.ofNat 18 (w % 2 ^ nbits)) := congrArg some (Memory.read_write_same _ hwf _ _)

/-- Settles O8: placing the word makes the next step undisturbed, with that word at `pc`. -/
theorem placedWordRunsNext : Obligations.PlacedWordRunsNext := by
  intro s nbits w i hwf hi
  exact stepRunsDecodedInstruction _ _ i (s.withFetchWord_undisturbed nbits w) (s.withFetchWord_progRead nbits w hwf)
    (decode_of_decodeTableWord hi)

/-! ## Reset, sleep, interrupt -/

/-- Settles O47: the four values are those `State.reset` writes out. -/
theorem resetStateAsStated : Obligations.ResetStateAsStated := ⟨rfl, rfl, rfl, rfl⟩

/-- Settles O49: the reset is taken after the boundary, whose bookkeeping it leaves alone. -/
theorem resetPinWins : Obligations.ResetPinWins := fun s hlegal hreset =>
  ⟨_, step_of_reset hlegal hreset, s.passBoundary.takeReset_isReset, s.passBoundary.takeReset_pins,
    s.passBoundary.takeReset_boundary⟩

/-- Settles O50: only the boundary passes. -/
theorem sleepChangesNothing : Obligations.SleepChangesNothing := by
  intro s hlegal hreset hsleep
  refine ⟨_, step_of_sleep hlegal hreset hsleep, ?_⟩
  simp [SameFlags, SameControl, NoPortEvent]

/-- Settles O51: with room for the frame, entry is one push and the writes of `pc`, `IE`, the counter and the event. -/
theorem interruptEntryAsDescribed : Obligations.InterruptEntryAsDescribed := by
  intro s hlegal hreset hsleep hie hirq hroom
  refine ⟨_, step_of_interrupt hlegal hreset hsleep hie hirq, ?_⟩
  rw [s.passBoundary.enterInterrupt_below hroom]
  simp [SameRegisters, SameFlags, SameScratchPad, State.reg, State.memRead, State.scratchPadIndex]

/-- Settles O52: a full stack makes the entry the internal reset. -/
theorem interruptAtFullStackResets : Obligations.InterruptAtFullStackResets := by
  intro s hlegal hreset hsleep hie hirq hfull
  refine ⟨_, step_of_interrupt hlegal hreset hsleep hie hirq, ?_⟩
  rw [s.passBoundary.enterInterrupt_full (Nat.not_lt.mpr hfull)]
  exact ⟨s.passBoundary.overflowReset_isReset, rfl⟩

/-! ## Where a step can stop, and where it can go -/

theorem State.progRead_eq_none_iff {s : State} {a : ProgAddr} :
    s.progRead a = none ↔ s.generics.programMemorySize ≤ a.toNat := by
  simp [State.progRead]

/-- Settles O56: reset, sleep and interrupt complete; the fetch, the decoder and the instruction stop on U1 to U4 alone. -/
theorem stepStopsOnlyOnUndefined : Obligations.StepStopsOnlyOnUndefined := by
  intro s hlegal
  obtain ⟨-, ho⟩ | ⟨-, -, ho⟩ | ⟨-, -, -, -, ho⟩ | ⟨hund, ho⟩ := step_cases s hlegal
  · exact .inl ⟨_, ho⟩
  · exact .inl ⟨_, ho⟩
  · exact .inl ⟨_, ho⟩
  obtain ⟨hnone, hr⟩ | ⟨w, why, hw, hd, hr⟩ | ⟨w, i, hw, hd, hr⟩ := s.passBoundary.runInstruction_cases
  · exact .inr ⟨hund, .inl ⟨State.progRead_eq_none_iff.mp hnone, ho.trans hr⟩⟩
  · exact .inr ⟨hund, .inr (.inl ⟨w, why, hw, hd, ho.trans hr⟩)⟩
  · have hstep : step s = exec i s.passBoundary := ho.trans hr
    obtain ⟨t, ht⟩ | ⟨hstack, hi, hf⟩ | ⟨a, z, c, b, rest, hstack, hi, hf⟩ | ⟨a, rest, hstack, hi, hf⟩ :=
      onlyReturnsCanFault i s.passBoundary
    · exact .inl ⟨t, hstep.trans ht⟩
    · exact .inr ⟨hund, .inr (.inr (.inl ⟨w, i, hw, hd, hstack, hi, hstep.trans hf⟩))⟩
    · exact .inr ⟨hund, .inr (.inr (.inr (.inl ⟨w, i, a, z, c, b, rest, hw, hd, hstack, hi, hstep.trans hf⟩)))⟩
    · exact .inr ⟨hund, .inr (.inr (.inr (.inr ⟨w, i, a, rest, hw, hd, hstack, hi, hstep.trans hf⟩)))⟩

/-- Settles O57: an instruction that runs is a control transfer or goes on. -/
theorem sequenceLeftOnlyAsListed : Obligations.SequenceLeftOnlyAsListed := by
  intro s t h
  obtain ⟨hreset, -⟩ | ⟨-, hsleep, ho⟩ | ⟨-, -, hie, hirq, -⟩ | ⟨-, ho⟩ := step_cases s (step_legal h)
  · exact .inr (.inl hreset)
  · cases h.symm.trans ho
    exact .inr (.inr (.inl ⟨hsleep, s.passBoundary_pc⟩))
  · exact .inr (.inr (.inr (.inl ⟨hie, hirq⟩)))
  have hrun : s.passBoundary.runInstruction = .next t := ho.symm.trans h
  obtain ⟨-, hr⟩ | ⟨_, _, -, -, hr⟩ | ⟨w, i, hw, hd, hr⟩ := s.passBoundary.runInstruction_cases
  · cases hrun.symm.trans hr
  · cases hrun.symm.trans hr
  · cases hi : i.isTransfer with
    | true => exact .inr (.inr (.inr (.inr ⟨w, i, hw, hd, hi⟩)))
    | false => exact .inl ((exec_effectOf (hr.symm.trans hrun)).pc_eq hi)

/-! ## The end of a run (70_reset_and_hazards.md R299) -/

/-- The word R299 writes out is the one the encoder writes for the JUMP to `a`. -/
theorem encode_jump_eq (a : ProgAddr) : encode (.jump a) = 0x22000#18 ||| a.setWidth 18 := by
  rw [encode, Laws.wordA_eq]
  refine BitVec.eq_of_getLsbD_eq fun i hi => ?_
  rw [Laws.wordF_bit, BitVec.getLsbD_or, BitVec.getLsbD_setWidth]
  interval_cases i <;> simp

theorem State.ended_iff (s : State) :
    s.ended = true ↔ s.ie = false ∧ s.progRead s.pc = some (encode (.jump s.pc)) := by
  simp [State.ended, encode_jump_eq]

/-- Settles O58: the instruction that runs is the JUMP to its own address, which leaves the machine at it. -/
theorem endedRunStays : Obligations.EndedRunStays := by
  intro s hended hund
  obtain ⟨hie, hword⟩ := s.ended_iff.mp hended
  have hstep : step s = .next (s.passBoundary.goto s.pc) :=
    stepRunsDecodedInstruction s _ (.jump s.pc) hund hword (decodeInvertsEncode (.jump s.pc))
  obtain ⟨hpc, hregs, hflags, hcontrol, hstack, hspm, hport, -⟩ := s.passBoundary.goto_onlyJumps s.pc
  exact ⟨_, hstep, (State.ended_iff _).mpr ⟨hie, hword⟩, hpc, hregs, hflags, hcontrol, hstack, hspm, hport⟩

end Sys2Proof.Machine
end

section
/-! PROOFS. The words without a meaning (30_encoding.md R84). The opcode selects the reader of a format, and each reader
rejects what its format does not allow under its own name; the fields of the words of each class are read off their bits. -/

namespace Sys2Proof

open Laws

/-! ## What each reader rejects -/

section
variable {w : IWord}

theorem decode_unlistedOpcode (hop : fieldOp w ∈ [0x15#6, 0x17#6, 0x23#6, 0x27#6, 0x2A#6, 0x33#6, 0x3B#6, 0x3F#6]) :
    decode w = .reserved .unlistedOpcode := by
  simp only [List.mem_cons, List.not_mem_nil, or_false] at hop
  rcases hop with hop | hop | hop | hop | hop | hop | hop | hop
  all_goals rw [decode, hop]; rfl

theorem decodeRR_lowDigit (hlow : fieldPK w ≠ 0x0#4) (f : RegNum → RegNum → Instr) :
    decodeRR w f = .reserved .lowDigit := if_neg hlow

theorem decode_lowDigit (hlow : fieldPK w ≠ 0x0#4)
    (hop : fieldOp w ∈ [0x00#6, 0x02#6, 0x04#6, 0x06#6, 0x08#6, 0x0A#6, 0x0C#6, 0x0E#6, 0x10#6, 0x12#6, 0x16#6, 0x18#6,
      0x1A#6, 0x1C#6, 0x1E#6, 0x24#6, 0x26#6, 0x2C#6, 0x2E#6]) : decode w = .reserved .lowDigit := by
  simp only [List.mem_cons, List.not_mem_nil, or_false] at hop
  rcases hop with hop | hop | hop | hop | hop | hop | hop | hop | hop | hop | hop | hop | hop | hop | hop | hop | hop |
    hop | hop
  all_goals rw [decode, hop]; exact decodeRR_lowDigit hlow _

/-- The eleven selectors are the reader's eleven cases, so every other byte falls to its last. -/
theorem decodeSH_shiftSelector
    (hsh : fieldKK w ∉ [0x00#8, 0x02#8, 0x04#8, 0x06#8, 0x07#8, 0x08#8, 0x0A#8, 0x0C#8, 0x0E#8, 0x0F#8, 0x80#8]) :
    decodeSH w = .reserved .shiftSelector := by
  unfold decodeSH
  split
  case h_12 => rfl
  all_goals
    rw [(BitVec.toNat_eq_nat.mp ‹(fieldKK w).toNat = _›).2] at hsh
    exact absurd (by decide) hsh

theorem decode_shiftSelector (hop : fieldOp w = 0x14#6)
    (hsh : fieldKK w ∉ [0x00#8, 0x02#8, 0x04#8, 0x06#8, 0x07#8, 0x08#8, 0x0A#8, 0x0C#8, 0x0E#8, 0x0F#8, 0x80#8]) :
    decode w = .reserved .shiftSelector := by
  rw [decode, hop]
  exact decodeSH_shiftSelector hsh

theorem decodeF0_fixedOperand (h₀ : fieldAAA w ≠ 0x000#12) (i : Instr) :
    decodeF0 w i = .reserved .fixedOperand := if_neg h₀

theorem decode_fixedOperand_of_ret (h₀ : fieldAAA w ≠ 0x000#12)
    (hop : fieldOp w ∈ [0x25#6, 0x31#6, 0x35#6, 0x39#6, 0x3D#6]) : decode w = .reserved .fixedOperand := by
  simp only [List.mem_cons, List.not_mem_nil, or_false] at hop
  rcases hop with hop | hop | hop | hop | hop
  all_goals rw [decode, hop]; exact decodeF0_fixedOperand h₀ _

theorem decodeF01_fixedOperand (h₀ : fieldAAA w ≠ 0x000#12) (h₁ : fieldAAA w ≠ 0x001#12) (i₀ i₁ : Instr) :
    decodeF01 w i₀ i₁ = .reserved .fixedOperand := (if_neg h₀).trans (if_neg h₁)

theorem decode_fixedOperand_of_pair (h₀ : fieldAAA w ≠ 0x000#12) (h₁ : fieldAAA w ≠ 0x001#12)
    (hop : fieldOp w ∈ [0x28#6, 0x29#6, 0x37#6]) : decode w = .reserved .fixedOperand := by
  simp only [List.mem_cons, List.not_mem_nil, or_false] at hop
  rcases hop with hop | hop | hop
  all_goals rw [decode, hop]; exact decodeF01_fixedOperand h₀ h₁ _ _

end

/-! ## The fields of a word with any low digit -/

theorem fieldOp_append (op : BitVec 6) (x y : RegNum) (low : BitVec 4) : fieldOp (op ++ x ++ y ++ low) = op := by
  refine BitVec.eq_of_getLsbD_eq fun i hi => ?_
  rw [fieldOp, BitVec.getLsbD_extractLsb', BitVec.getLsbD_append, BitVec.getLsbD_append, BitVec.getLsbD_append]
  interval_cases i <;> simp

theorem fieldPK_append (op : BitVec 6) (x y : RegNum) (low : BitVec 4) : fieldPK (op ++ x ++ y ++ low) = low := by
  refine BitVec.eq_of_getLsbD_eq fun i hi => ?_
  rw [fieldPK, BitVec.getLsbD_extractLsb', BitVec.getLsbD_append]
  interval_cases i <;> simp

/-- Settles O5, class by class: the fields of the word select the reader and make it reject. -/
theorem reservedWordsRejectedByClass : Obligations.ReservedWordsRejectedByClass := by
  intro x y low sh aaa
  refine ⟨fun op hop => ?_, fun hlow op hop => ?_, fun hsh => ?_, fun h₀ op hop => ?_, fun h₀ h₁ op hop => ?_⟩
  · exact decode_unlistedOpcode (w := wordF op aaa) (by rwa [wordF_op])
  · exact decode_lowDigit (by rwa [fieldPK_append]) (by rwa [fieldOp_append])
  · exact decode_shiftSelector (w := wordRK 0x14#6 x sh) (wordRK_op _ x sh) (by rwa [wordRK_kk])
  · exact decode_fixedOperand_of_ret (w := wordF op aaa) (by rwa [wordF_aaa]) (by rwa [wordF_op])
  · exact decode_fixedOperand_of_pair (w := wordF op aaa) (by rwa [wordF_aaa]) (by rwa [wordF_aaa]) (by rwa [wordF_op])

end Sys2Proof
end
